-- ==== Sys2Proof/Word.lean ====
section
/-! DEFINITION. The two word types of the core (00_scope.md R6, R9): bytes for data, 16-bit words for addresses. -/

namespace Sys2Proof

/-- A data byte: XLEN = 8 (00_scope.md R6). -/
abbrev Byte := BitVec 8

/-- A bus address or program counter: ALEN = 16 (00_scope.md R6). -/
abbrev Word := BitVec 16

end Sys2Proof
end

