-- ==== Sys2Proof/Syntax.lean ====
section
/-! DEFINITION. The instructions as syntax: addressing modes, operands, mnemonics and one constructor of `Instr` for
each of the 151 rows of spec/opcode_table.json. A (mnemonic, mode) pair that 30_encoding.md R96 does not bind has no
constructor (R99), and every operand byte is legal (60_exceptions.md R240), so no term of `Instr` is meaningless. -/

namespace Sys2Proof

/-- The thirteen mode tags (30_encoding.md R91, 40_addressing.md R127). -/
inductive Mode where
  | imp | acc | imm | zp | zpx | zpy | abs | absx | absy | indx | indy | rel | ind
  deriving DecidableEq, Repr

/-- The eight modes that name a byte on the bus, each with the operand bytes that follow the opcode
(40_addressing.md R112 to R117, R119, R120). -/
inductive MemForm where
  | zp   (addr : Byte)
  | zpx  (addr : Byte)
  | zpy  (addr : Byte)
  | abs  (addr : Word)
  | absx (addr : Word)
  | absy (addr : Word)
  | indx (ptr : Byte)
  | indy (ptr : Byte)
  deriving DecidableEq, Repr

/-- A mode together with its operand bytes (30_encoding.md R90, R92). -/
inductive Operand where
  | imp
  | acc
  | imm (value : Byte)
  | mem (form : MemForm)
  | rel (off : Byte)
  | ind (ptr : Word)
  deriving DecidableEq, Repr

/-- The mode tag of a memory form. -/
def MemForm.mode : MemForm → Mode
  | .zp _ => .zp
  | .zpx _ => .zpx
  | .zpy _ => .zpy
  | .abs _ => .abs
  | .absx _ => .absx
  | .absy _ => .absy
  | .indx _ => .indx
  | .indy _ => .indy

/-- The mode tag of an operand. -/
def Operand.mode : Operand → Mode
  | .imp => .imp
  | .acc => .acc
  | .imm _ => .imm
  | .mem form => form.mode
  | .rel _ => .rel
  | .ind _ => .ind

/-- The 56 mnemonics (30_encoding.md R95, R96). -/
inductive Mnemonic where
  | ora | and | eor | adc | sbc | cmp | cpx | cpy | bit
  | asl | lsr | rol | ror | inc | dec | inx | iny | dex
  | dey | lda | ldx | ldy | sta | stx | sty | tax | txa
  | tay | tya | tsx | txs | clc | sec | cli | sei | cld
  | sed | clv | bpl | bmi | bvc | bvs | bcc | bcs | bne
  | beq | nop | pha | pla | php | plp | jsr | rts | jmp
  | brk | rti
  deriving DecidableEq, Repr

/-- The instructions: one constructor for each row of spec/opcode_table.json, with its operand bytes as one field. -/
inductive Instr where
  -- ORA: 41_logic_arith.md R131
  | oraImm (value : Byte)
  | oraZp (addr : Byte)
  | oraZpx (addr : Byte)
  | oraAbs (addr : Word)
  | oraAbsx (addr : Word)
  | oraAbsy (addr : Word)
  | oraIndx (ptr : Byte)
  | oraIndy (ptr : Byte)
  -- AND: 41_logic_arith.md R132
  | andImm (value : Byte)
  | andZp (addr : Byte)
  | andZpx (addr : Byte)
  | andAbs (addr : Word)
  | andAbsx (addr : Word)
  | andAbsy (addr : Word)
  | andIndx (ptr : Byte)
  | andIndy (ptr : Byte)
  -- EOR: 41_logic_arith.md R133
  | eorImm (value : Byte)
  | eorZp (addr : Byte)
  | eorZpx (addr : Byte)
  | eorAbs (addr : Word)
  | eorAbsx (addr : Word)
  | eorAbsy (addr : Word)
  | eorIndx (ptr : Byte)
  | eorIndy (ptr : Byte)
  -- ADC: 41_logic_arith.md R134
  | adcImm (value : Byte)
  | adcZp (addr : Byte)
  | adcZpx (addr : Byte)
  | adcAbs (addr : Word)
  | adcAbsx (addr : Word)
  | adcAbsy (addr : Word)
  | adcIndx (ptr : Byte)
  | adcIndy (ptr : Byte)
  -- SBC: 41_logic_arith.md R135
  | sbcImm (value : Byte)
  | sbcZp (addr : Byte)
  | sbcZpx (addr : Byte)
  | sbcAbs (addr : Word)
  | sbcAbsx (addr : Word)
  | sbcAbsy (addr : Word)
  | sbcIndx (ptr : Byte)
  | sbcIndy (ptr : Byte)
  -- CMP: 41_logic_arith.md R137
  | cmpImm (value : Byte)
  | cmpZp (addr : Byte)
  | cmpZpx (addr : Byte)
  | cmpAbs (addr : Word)
  | cmpAbsx (addr : Word)
  | cmpAbsy (addr : Word)
  | cmpIndx (ptr : Byte)
  | cmpIndy (ptr : Byte)
  -- CPX: 41_logic_arith.md R138
  | cpxImm (value : Byte)
  | cpxZp (addr : Byte)
  | cpxAbs (addr : Word)
  -- CPY: 41_logic_arith.md R139
  | cpyImm (value : Byte)
  | cpyZp (addr : Byte)
  | cpyAbs (addr : Word)
  -- BIT: 41_logic_arith.md R140
  | bitZp (addr : Byte)
  | bitAbs (addr : Word)
  -- ASL: 42_shift_incdec.md R151
  | aslAcc
  | aslZp (addr : Byte)
  | aslZpx (addr : Byte)
  | aslAbs (addr : Word)
  | aslAbsx (addr : Word)
  -- LSR: 42_shift_incdec.md R152
  | lsrAcc
  | lsrZp (addr : Byte)
  | lsrZpx (addr : Byte)
  | lsrAbs (addr : Word)
  | lsrAbsx (addr : Word)
  -- ROL: 42_shift_incdec.md R153
  | rolAcc
  | rolZp (addr : Byte)
  | rolZpx (addr : Byte)
  | rolAbs (addr : Word)
  | rolAbsx (addr : Word)
  -- ROR: 42_shift_incdec.md R154
  | rorAcc
  | rorZp (addr : Byte)
  | rorZpx (addr : Byte)
  | rorAbs (addr : Word)
  | rorAbsx (addr : Word)
  -- INC: 42_shift_incdec.md R155
  | incZp (addr : Byte)
  | incZpx (addr : Byte)
  | incAbs (addr : Word)
  | incAbsx (addr : Word)
  -- DEC: 42_shift_incdec.md R156
  | decZp (addr : Byte)
  | decZpx (addr : Byte)
  | decAbs (addr : Word)
  | decAbsx (addr : Word)
  -- INX: 42_shift_incdec.md R157
  | inx
  -- INY: 42_shift_incdec.md R158
  | iny
  -- DEX: 42_shift_incdec.md R159
  | dex
  -- DEY: 42_shift_incdec.md R160
  | dey
  -- LDA: 43_load_store_transfer.md R171
  | ldaImm (value : Byte)
  | ldaZp (addr : Byte)
  | ldaZpx (addr : Byte)
  | ldaAbs (addr : Word)
  | ldaAbsx (addr : Word)
  | ldaAbsy (addr : Word)
  | ldaIndx (ptr : Byte)
  | ldaIndy (ptr : Byte)
  -- LDX: 43_load_store_transfer.md R172
  | ldxImm (value : Byte)
  | ldxZp (addr : Byte)
  | ldxZpy (addr : Byte)
  | ldxAbs (addr : Word)
  | ldxAbsy (addr : Word)
  -- LDY: 43_load_store_transfer.md R173
  | ldyImm (value : Byte)
  | ldyZp (addr : Byte)
  | ldyZpx (addr : Byte)
  | ldyAbs (addr : Word)
  | ldyAbsx (addr : Word)
  -- STA: 43_load_store_transfer.md R174
  | staZp (addr : Byte)
  | staZpx (addr : Byte)
  | staAbs (addr : Word)
  | staAbsx (addr : Word)
  | staAbsy (addr : Word)
  | staIndx (ptr : Byte)
  | staIndy (ptr : Byte)
  -- STX: 43_load_store_transfer.md R175
  | stxZp (addr : Byte)
  | stxZpy (addr : Byte)
  | stxAbs (addr : Word)
  -- STY: 43_load_store_transfer.md R176
  | styZp (addr : Byte)
  | styZpx (addr : Byte)
  | styAbs (addr : Word)
  -- TAX: 43_load_store_transfer.md R178
  | tax
  -- TXA: 43_load_store_transfer.md R179
  | txa
  -- TAY: 43_load_store_transfer.md R180
  | tay
  -- TYA: 43_load_store_transfer.md R181
  | tya
  -- TSX: 43_load_store_transfer.md R182
  | tsx
  -- TXS: 43_load_store_transfer.md R183
  | txs
  -- CLC: 44_flag_branch.md R191
  | clc
  -- SEC: 44_flag_branch.md R192
  | sec
  -- CLI: 44_flag_branch.md R193
  | cli
  -- SEI: 44_flag_branch.md R194
  | sei
  -- CLD: 44_flag_branch.md R195
  | cld
  -- SED: 44_flag_branch.md R196
  | sed
  -- CLV: 44_flag_branch.md R197
  | clv
  -- BPL: 44_flag_branch.md R199
  | bpl (off : Byte)
  -- BMI: 44_flag_branch.md R200
  | bmi (off : Byte)
  -- BVC: 44_flag_branch.md R201
  | bvc (off : Byte)
  -- BVS: 44_flag_branch.md R202
  | bvs (off : Byte)
  -- BCC: 44_flag_branch.md R203
  | bcc (off : Byte)
  -- BCS: 44_flag_branch.md R204
  | bcs (off : Byte)
  -- BNE: 44_flag_branch.md R205
  | bne (off : Byte)
  -- BEQ: 44_flag_branch.md R206
  | beq (off : Byte)
  -- NOP: 44_flag_branch.md R207
  | nop
  -- PHA: 45_stack_control.md R217
  | pha
  -- PLA: 45_stack_control.md R218
  | pla
  -- PHP: 45_stack_control.md R219
  | php
  -- PLP: 45_stack_control.md R220
  | plp
  -- JSR: 45_stack_control.md R221
  | jsr (addr : Word)
  -- RTS: 45_stack_control.md R222
  | rts
  -- JMP: 45_stack_control.md R223
  | jmpAbs (addr : Word)
  | jmpInd (ptr : Word)
  -- BRK: 45_stack_control.md R224
  | brk
  -- RTI: 45_stack_control.md R225
  | rti
  deriving DecidableEq, Repr

/-- The mnemonic of an instruction (30_encoding.md R96). -/
def Instr.mnemonic : Instr → Mnemonic
  | .oraImm _ => .ora
  | .oraZp _ => .ora
  | .oraZpx _ => .ora
  | .oraAbs _ => .ora
  | .oraAbsx _ => .ora
  | .oraAbsy _ => .ora
  | .oraIndx _ => .ora
  | .oraIndy _ => .ora
  | .andImm _ => .and
  | .andZp _ => .and
  | .andZpx _ => .and
  | .andAbs _ => .and
  | .andAbsx _ => .and
  | .andAbsy _ => .and
  | .andIndx _ => .and
  | .andIndy _ => .and
  | .eorImm _ => .eor
  | .eorZp _ => .eor
  | .eorZpx _ => .eor
  | .eorAbs _ => .eor
  | .eorAbsx _ => .eor
  | .eorAbsy _ => .eor
  | .eorIndx _ => .eor
  | .eorIndy _ => .eor
  | .adcImm _ => .adc
  | .adcZp _ => .adc
  | .adcZpx _ => .adc
  | .adcAbs _ => .adc
  | .adcAbsx _ => .adc
  | .adcAbsy _ => .adc
  | .adcIndx _ => .adc
  | .adcIndy _ => .adc
  | .sbcImm _ => .sbc
  | .sbcZp _ => .sbc
  | .sbcZpx _ => .sbc
  | .sbcAbs _ => .sbc
  | .sbcAbsx _ => .sbc
  | .sbcAbsy _ => .sbc
  | .sbcIndx _ => .sbc
  | .sbcIndy _ => .sbc
  | .cmpImm _ => .cmp
  | .cmpZp _ => .cmp
  | .cmpZpx _ => .cmp
  | .cmpAbs _ => .cmp
  | .cmpAbsx _ => .cmp
  | .cmpAbsy _ => .cmp
  | .cmpIndx _ => .cmp
  | .cmpIndy _ => .cmp
  | .cpxImm _ => .cpx
  | .cpxZp _ => .cpx
  | .cpxAbs _ => .cpx
  | .cpyImm _ => .cpy
  | .cpyZp _ => .cpy
  | .cpyAbs _ => .cpy
  | .bitZp _ => .bit
  | .bitAbs _ => .bit
  | .aslAcc => .asl
  | .aslZp _ => .asl
  | .aslZpx _ => .asl
  | .aslAbs _ => .asl
  | .aslAbsx _ => .asl
  | .lsrAcc => .lsr
  | .lsrZp _ => .lsr
  | .lsrZpx _ => .lsr
  | .lsrAbs _ => .lsr
  | .lsrAbsx _ => .lsr
  | .rolAcc => .rol
  | .rolZp _ => .rol
  | .rolZpx _ => .rol
  | .rolAbs _ => .rol
  | .rolAbsx _ => .rol
  | .rorAcc => .ror
  | .rorZp _ => .ror
  | .rorZpx _ => .ror
  | .rorAbs _ => .ror
  | .rorAbsx _ => .ror
  | .incZp _ => .inc
  | .incZpx _ => .inc
  | .incAbs _ => .inc
  | .incAbsx _ => .inc
  | .decZp _ => .dec
  | .decZpx _ => .dec
  | .decAbs _ => .dec
  | .decAbsx _ => .dec
  | .inx => .inx
  | .iny => .iny
  | .dex => .dex
  | .dey => .dey
  | .ldaImm _ => .lda
  | .ldaZp _ => .lda
  | .ldaZpx _ => .lda
  | .ldaAbs _ => .lda
  | .ldaAbsx _ => .lda
  | .ldaAbsy _ => .lda
  | .ldaIndx _ => .lda
  | .ldaIndy _ => .lda
  | .ldxImm _ => .ldx
  | .ldxZp _ => .ldx
  | .ldxZpy _ => .ldx
  | .ldxAbs _ => .ldx
  | .ldxAbsy _ => .ldx
  | .ldyImm _ => .ldy
  | .ldyZp _ => .ldy
  | .ldyZpx _ => .ldy
  | .ldyAbs _ => .ldy
  | .ldyAbsx _ => .ldy
  | .staZp _ => .sta
  | .staZpx _ => .sta
  | .staAbs _ => .sta
  | .staAbsx _ => .sta
  | .staAbsy _ => .sta
  | .staIndx _ => .sta
  | .staIndy _ => .sta
  | .stxZp _ => .stx
  | .stxZpy _ => .stx
  | .stxAbs _ => .stx
  | .styZp _ => .sty
  | .styZpx _ => .sty
  | .styAbs _ => .sty
  | .tax => .tax
  | .txa => .txa
  | .tay => .tay
  | .tya => .tya
  | .tsx => .tsx
  | .txs => .txs
  | .clc => .clc
  | .sec => .sec
  | .cli => .cli
  | .sei => .sei
  | .cld => .cld
  | .sed => .sed
  | .clv => .clv
  | .bpl _ => .bpl
  | .bmi _ => .bmi
  | .bvc _ => .bvc
  | .bvs _ => .bvs
  | .bcc _ => .bcc
  | .bcs _ => .bcs
  | .bne _ => .bne
  | .beq _ => .beq
  | .nop => .nop
  | .pha => .pha
  | .pla => .pla
  | .php => .php
  | .plp => .plp
  | .jsr _ => .jsr
  | .rts => .rts
  | .jmpAbs _ => .jmp
  | .jmpInd _ => .jmp
  | .brk => .brk
  | .rti => .rti

/-- The operand of an instruction: its mode and the bytes after the opcode (30_encoding.md R90, R96). -/
def Instr.operand : Instr → Operand
  | .oraImm v => .imm v
  | .oraZp v => .mem (.zp v)
  | .oraZpx v => .mem (.zpx v)
  | .oraAbs v => .mem (.abs v)
  | .oraAbsx v => .mem (.absx v)
  | .oraAbsy v => .mem (.absy v)
  | .oraIndx v => .mem (.indx v)
  | .oraIndy v => .mem (.indy v)
  | .andImm v => .imm v
  | .andZp v => .mem (.zp v)
  | .andZpx v => .mem (.zpx v)
  | .andAbs v => .mem (.abs v)
  | .andAbsx v => .mem (.absx v)
  | .andAbsy v => .mem (.absy v)
  | .andIndx v => .mem (.indx v)
  | .andIndy v => .mem (.indy v)
  | .eorImm v => .imm v
  | .eorZp v => .mem (.zp v)
  | .eorZpx v => .mem (.zpx v)
  | .eorAbs v => .mem (.abs v)
  | .eorAbsx v => .mem (.absx v)
  | .eorAbsy v => .mem (.absy v)
  | .eorIndx v => .mem (.indx v)
  | .eorIndy v => .mem (.indy v)
  | .adcImm v => .imm v
  | .adcZp v => .mem (.zp v)
  | .adcZpx v => .mem (.zpx v)
  | .adcAbs v => .mem (.abs v)
  | .adcAbsx v => .mem (.absx v)
  | .adcAbsy v => .mem (.absy v)
  | .adcIndx v => .mem (.indx v)
  | .adcIndy v => .mem (.indy v)
  | .sbcImm v => .imm v
  | .sbcZp v => .mem (.zp v)
  | .sbcZpx v => .mem (.zpx v)
  | .sbcAbs v => .mem (.abs v)
  | .sbcAbsx v => .mem (.absx v)
  | .sbcAbsy v => .mem (.absy v)
  | .sbcIndx v => .mem (.indx v)
  | .sbcIndy v => .mem (.indy v)
  | .cmpImm v => .imm v
  | .cmpZp v => .mem (.zp v)
  | .cmpZpx v => .mem (.zpx v)
  | .cmpAbs v => .mem (.abs v)
  | .cmpAbsx v => .mem (.absx v)
  | .cmpAbsy v => .mem (.absy v)
  | .cmpIndx v => .mem (.indx v)
  | .cmpIndy v => .mem (.indy v)
  | .cpxImm v => .imm v
  | .cpxZp v => .mem (.zp v)
  | .cpxAbs v => .mem (.abs v)
  | .cpyImm v => .imm v
  | .cpyZp v => .mem (.zp v)
  | .cpyAbs v => .mem (.abs v)
  | .bitZp v => .mem (.zp v)
  | .bitAbs v => .mem (.abs v)
  | .aslAcc => .acc
  | .aslZp v => .mem (.zp v)
  | .aslZpx v => .mem (.zpx v)
  | .aslAbs v => .mem (.abs v)
  | .aslAbsx v => .mem (.absx v)
  | .lsrAcc => .acc
  | .lsrZp v => .mem (.zp v)
  | .lsrZpx v => .mem (.zpx v)
  | .lsrAbs v => .mem (.abs v)
  | .lsrAbsx v => .mem (.absx v)
  | .rolAcc => .acc
  | .rolZp v => .mem (.zp v)
  | .rolZpx v => .mem (.zpx v)
  | .rolAbs v => .mem (.abs v)
  | .rolAbsx v => .mem (.absx v)
  | .rorAcc => .acc
  | .rorZp v => .mem (.zp v)
  | .rorZpx v => .mem (.zpx v)
  | .rorAbs v => .mem (.abs v)
  | .rorAbsx v => .mem (.absx v)
  | .incZp v => .mem (.zp v)
  | .incZpx v => .mem (.zpx v)
  | .incAbs v => .mem (.abs v)
  | .incAbsx v => .mem (.absx v)
  | .decZp v => .mem (.zp v)
  | .decZpx v => .mem (.zpx v)
  | .decAbs v => .mem (.abs v)
  | .decAbsx v => .mem (.absx v)
  | .inx => .imp
  | .iny => .imp
  | .dex => .imp
  | .dey => .imp
  | .ldaImm v => .imm v
  | .ldaZp v => .mem (.zp v)
  | .ldaZpx v => .mem (.zpx v)
  | .ldaAbs v => .mem (.abs v)
  | .ldaAbsx v => .mem (.absx v)
  | .ldaAbsy v => .mem (.absy v)
  | .ldaIndx v => .mem (.indx v)
  | .ldaIndy v => .mem (.indy v)
  | .ldxImm v => .imm v
  | .ldxZp v => .mem (.zp v)
  | .ldxZpy v => .mem (.zpy v)
  | .ldxAbs v => .mem (.abs v)
  | .ldxAbsy v => .mem (.absy v)
  | .ldyImm v => .imm v
  | .ldyZp v => .mem (.zp v)
  | .ldyZpx v => .mem (.zpx v)
  | .ldyAbs v => .mem (.abs v)
  | .ldyAbsx v => .mem (.absx v)
  | .staZp v => .mem (.zp v)
  | .staZpx v => .mem (.zpx v)
  | .staAbs v => .mem (.abs v)
  | .staAbsx v => .mem (.absx v)
  | .staAbsy v => .mem (.absy v)
  | .staIndx v => .mem (.indx v)
  | .staIndy v => .mem (.indy v)
  | .stxZp v => .mem (.zp v)
  | .stxZpy v => .mem (.zpy v)
  | .stxAbs v => .mem (.abs v)
  | .styZp v => .mem (.zp v)
  | .styZpx v => .mem (.zpx v)
  | .styAbs v => .mem (.abs v)
  | .tax => .imp
  | .txa => .imp
  | .tay => .imp
  | .tya => .imp
  | .tsx => .imp
  | .txs => .imp
  | .clc => .imp
  | .sec => .imp
  | .cli => .imp
  | .sei => .imp
  | .cld => .imp
  | .sed => .imp
  | .clv => .imp
  | .bpl v => .rel v
  | .bmi v => .rel v
  | .bvc v => .rel v
  | .bvs v => .rel v
  | .bcc v => .rel v
  | .bcs v => .rel v
  | .bne v => .rel v
  | .beq v => .rel v
  | .nop => .imp
  | .pha => .imp
  | .pla => .imp
  | .php => .imp
  | .plp => .imp
  | .jsr v => .mem (.abs v)
  | .rts => .imp
  | .jmpAbs v => .mem (.abs v)
  | .jmpInd v => .ind v
  | .brk => .imp
  | .rti => .imp

/-- The addressing mode of an instruction. -/
def Instr.mode (i : Instr) : Mode :=
  i.operand.mode

end Sys2Proof
end

