-- ==== Sys2Proof/Config.lean ====
section
/-! DEFINITION. What the spec leaves to an implementation: the rows an opcode table is made of, and the one free value,
the byte a collaborator returns to a read. The parameters' default values are Decode.lean's `optable` (OPTABLE) and
Machine/Params.lean's `defaultParams` (PORT_ADDR, BRK_VECTOR, the ROM images). -/

namespace Sys2Proof

/-- One populated entry of OPTABLE: the descriptor of 30_encoding.md R98. The length is the mode's (R91), the handler the
mnemonic's; the base cycle cost is informative and nothing reads it (assumption 24). -/
structure Row where
  opcode   : Byte
  mnemonic : Mnemonic
  mode     : Mode
  cycles   : Nat
  deriving DecidableEq, Repr

/-- FREE VALUE. The byte the environment answers to the n-th collaborator read that no queued answer serves
(20_memory.md R58: "a read returns a draw, any byte, that the core does not determine"; assumption 9). -/
opaque Config.ioDraw : Nat → Byte

end Sys2Proof
end

