-- ==== Sys2Proof/Decode.lean ====
section
/-! DEFINITION. The opcode table, the decoder, and after them the encoder (30_encoding.md). The decoder takes the table as
an argument (R95: "a model must take the table as an argument"); `decode` and `encode` are those of the default table. -/

namespace Sys2Proof

/-! ## The default opcode table (30_encoding.md R96, section 7 for the cycles), in pieces by high nibble -/

/-- Row 0x of the matrix of 30_encoding.md R96. -/
def optable0x : List Row := [
  ⟨0x00, .brk, .imp, 7⟩,
  ⟨0x01, .ora, .indx, 6⟩,
  ⟨0x05, .ora, .zp, 3⟩,
  ⟨0x06, .asl, .zp, 5⟩,
  ⟨0x08, .php, .imp, 3⟩,
  ⟨0x09, .ora, .imm, 2⟩,
  ⟨0x0A, .asl, .acc, 2⟩,
  ⟨0x0D, .ora, .abs, 4⟩,
  ⟨0x0E, .asl, .abs, 6⟩]

/-- Row 1x of the matrix of 30_encoding.md R96. -/
def optable1x : List Row := [
  ⟨0x10, .bpl, .rel, 2⟩,
  ⟨0x11, .ora, .indy, 5⟩,
  ⟨0x15, .ora, .zpx, 4⟩,
  ⟨0x16, .asl, .zpx, 6⟩,
  ⟨0x18, .clc, .imp, 2⟩,
  ⟨0x19, .ora, .absy, 4⟩,
  ⟨0x1D, .ora, .absx, 4⟩,
  ⟨0x1E, .asl, .absx, 7⟩]

/-- Row 2x of the matrix of 30_encoding.md R96. -/
def optable2x : List Row := [
  ⟨0x20, .jsr, .abs, 6⟩,
  ⟨0x21, .and, .indx, 6⟩,
  ⟨0x24, .bit, .zp, 3⟩,
  ⟨0x25, .and, .zp, 3⟩,
  ⟨0x26, .rol, .zp, 5⟩,
  ⟨0x28, .plp, .imp, 4⟩,
  ⟨0x29, .and, .imm, 2⟩,
  ⟨0x2A, .rol, .acc, 2⟩,
  ⟨0x2C, .bit, .abs, 4⟩,
  ⟨0x2D, .and, .abs, 4⟩,
  ⟨0x2E, .rol, .abs, 6⟩]

/-- Row 3x of the matrix of 30_encoding.md R96. -/
def optable3x : List Row := [
  ⟨0x30, .bmi, .rel, 2⟩,
  ⟨0x31, .and, .indy, 5⟩,
  ⟨0x35, .and, .zpx, 4⟩,
  ⟨0x36, .rol, .zpx, 6⟩,
  ⟨0x38, .sec, .imp, 2⟩,
  ⟨0x39, .and, .absy, 4⟩,
  ⟨0x3D, .and, .absx, 4⟩,
  ⟨0x3E, .rol, .absx, 7⟩]

/-- Row 4x of the matrix of 30_encoding.md R96. -/
def optable4x : List Row := [
  ⟨0x40, .rti, .imp, 6⟩,
  ⟨0x41, .eor, .indx, 6⟩,
  ⟨0x45, .eor, .zp, 3⟩,
  ⟨0x46, .lsr, .zp, 5⟩,
  ⟨0x48, .pha, .imp, 3⟩,
  ⟨0x49, .eor, .imm, 2⟩,
  ⟨0x4A, .lsr, .acc, 2⟩,
  ⟨0x4C, .jmp, .abs, 3⟩,
  ⟨0x4D, .eor, .abs, 4⟩,
  ⟨0x4E, .lsr, .abs, 6⟩]

/-- Row 5x of the matrix of 30_encoding.md R96. -/
def optable5x : List Row := [
  ⟨0x50, .bvc, .rel, 2⟩,
  ⟨0x51, .eor, .indy, 5⟩,
  ⟨0x55, .eor, .zpx, 4⟩,
  ⟨0x56, .lsr, .zpx, 6⟩,
  ⟨0x58, .cli, .imp, 2⟩,
  ⟨0x59, .eor, .absy, 4⟩,
  ⟨0x5D, .eor, .absx, 4⟩,
  ⟨0x5E, .lsr, .absx, 7⟩]

/-- Row 6x of the matrix of 30_encoding.md R96. -/
def optable6x : List Row := [
  ⟨0x60, .rts, .imp, 6⟩,
  ⟨0x61, .adc, .indx, 6⟩,
  ⟨0x65, .adc, .zp, 3⟩,
  ⟨0x66, .ror, .zp, 5⟩,
  ⟨0x68, .pla, .imp, 4⟩,
  ⟨0x69, .adc, .imm, 2⟩,
  ⟨0x6A, .ror, .acc, 2⟩,
  ⟨0x6C, .jmp, .ind, 5⟩,
  ⟨0x6D, .adc, .abs, 4⟩,
  ⟨0x6E, .ror, .abs, 6⟩]

/-- Row 7x of the matrix of 30_encoding.md R96. -/
def optable7x : List Row := [
  ⟨0x70, .bvs, .rel, 2⟩,
  ⟨0x71, .adc, .indy, 5⟩,
  ⟨0x75, .adc, .zpx, 4⟩,
  ⟨0x76, .ror, .zpx, 6⟩,
  ⟨0x78, .sei, .imp, 2⟩,
  ⟨0x79, .adc, .absy, 4⟩,
  ⟨0x7D, .adc, .absx, 4⟩,
  ⟨0x7E, .ror, .absx, 7⟩]

/-- Row 8x of the matrix of 30_encoding.md R96. -/
def optable8x : List Row := [
  ⟨0x81, .sta, .indx, 6⟩,
  ⟨0x84, .sty, .zp, 3⟩,
  ⟨0x85, .sta, .zp, 3⟩,
  ⟨0x86, .stx, .zp, 3⟩,
  ⟨0x88, .dey, .imp, 2⟩,
  ⟨0x8A, .txa, .imp, 2⟩,
  ⟨0x8C, .sty, .abs, 4⟩,
  ⟨0x8D, .sta, .abs, 4⟩,
  ⟨0x8E, .stx, .abs, 4⟩]

/-- Row 9x of the matrix of 30_encoding.md R96. -/
def optable9x : List Row := [
  ⟨0x90, .bcc, .rel, 2⟩,
  ⟨0x91, .sta, .indy, 6⟩,
  ⟨0x94, .sty, .zpx, 4⟩,
  ⟨0x95, .sta, .zpx, 4⟩,
  ⟨0x96, .stx, .zpy, 4⟩,
  ⟨0x98, .tya, .imp, 2⟩,
  ⟨0x99, .sta, .absy, 5⟩,
  ⟨0x9A, .txs, .imp, 2⟩,
  ⟨0x9D, .sta, .absx, 5⟩]

/-- Row Ax of the matrix of 30_encoding.md R96. -/
def optableAx : List Row := [
  ⟨0xA0, .ldy, .imm, 2⟩,
  ⟨0xA1, .lda, .indx, 6⟩,
  ⟨0xA2, .ldx, .imm, 2⟩,
  ⟨0xA4, .ldy, .zp, 3⟩,
  ⟨0xA5, .lda, .zp, 3⟩,
  ⟨0xA6, .ldx, .zp, 3⟩,
  ⟨0xA8, .tay, .imp, 2⟩,
  ⟨0xA9, .lda, .imm, 2⟩,
  ⟨0xAA, .tax, .imp, 2⟩,
  ⟨0xAC, .ldy, .abs, 4⟩,
  ⟨0xAD, .lda, .abs, 4⟩,
  ⟨0xAE, .ldx, .abs, 4⟩]

/-- Row Bx of the matrix of 30_encoding.md R96. -/
def optableBx : List Row := [
  ⟨0xB0, .bcs, .rel, 2⟩,
  ⟨0xB1, .lda, .indy, 5⟩,
  ⟨0xB4, .ldy, .zpx, 4⟩,
  ⟨0xB5, .lda, .zpx, 4⟩,
  ⟨0xB6, .ldx, .zpy, 4⟩,
  ⟨0xB8, .clv, .imp, 2⟩,
  ⟨0xB9, .lda, .absy, 4⟩,
  ⟨0xBA, .tsx, .imp, 2⟩,
  ⟨0xBC, .ldy, .absx, 4⟩,
  ⟨0xBD, .lda, .absx, 4⟩,
  ⟨0xBE, .ldx, .absy, 4⟩]

/-- Row Cx of the matrix of 30_encoding.md R96. -/
def optableCx : List Row := [
  ⟨0xC0, .cpy, .imm, 2⟩,
  ⟨0xC1, .cmp, .indx, 6⟩,
  ⟨0xC4, .cpy, .zp, 3⟩,
  ⟨0xC5, .cmp, .zp, 3⟩,
  ⟨0xC6, .dec, .zp, 5⟩,
  ⟨0xC8, .iny, .imp, 2⟩,
  ⟨0xC9, .cmp, .imm, 2⟩,
  ⟨0xCA, .dex, .imp, 2⟩,
  ⟨0xCC, .cpy, .abs, 4⟩,
  ⟨0xCD, .cmp, .abs, 4⟩,
  ⟨0xCE, .dec, .abs, 6⟩]

/-- Row Dx of the matrix of 30_encoding.md R96. -/
def optableDx : List Row := [
  ⟨0xD0, .bne, .rel, 2⟩,
  ⟨0xD1, .cmp, .indy, 5⟩,
  ⟨0xD5, .cmp, .zpx, 4⟩,
  ⟨0xD6, .dec, .zpx, 6⟩,
  ⟨0xD8, .cld, .imp, 2⟩,
  ⟨0xD9, .cmp, .absy, 4⟩,
  ⟨0xDD, .cmp, .absx, 4⟩,
  ⟨0xDE, .dec, .absx, 7⟩]

/-- Row Ex of the matrix of 30_encoding.md R96. -/
def optableEx : List Row := [
  ⟨0xE0, .cpx, .imm, 2⟩,
  ⟨0xE1, .sbc, .indx, 6⟩,
  ⟨0xE4, .cpx, .zp, 3⟩,
  ⟨0xE5, .sbc, .zp, 3⟩,
  ⟨0xE6, .inc, .zp, 5⟩,
  ⟨0xE8, .inx, .imp, 2⟩,
  ⟨0xE9, .sbc, .imm, 2⟩,
  ⟨0xEA, .nop, .imp, 2⟩,
  ⟨0xEC, .cpx, .abs, 4⟩,
  ⟨0xED, .sbc, .abs, 4⟩,
  ⟨0xEE, .inc, .abs, 6⟩]

/-- Row Fx of the matrix of 30_encoding.md R96. -/
def optableFx : List Row := [
  ⟨0xF0, .beq, .rel, 2⟩,
  ⟨0xF1, .sbc, .indy, 5⟩,
  ⟨0xF5, .sbc, .zpx, 4⟩,
  ⟨0xF6, .inc, .zpx, 6⟩,
  ⟨0xF8, .sed, .imp, 2⟩,
  ⟨0xF9, .sbc, .absy, 4⟩,
  ⟨0xFD, .sbc, .absx, 4⟩,
  ⟨0xFE, .inc, .absx, 7⟩]

/-- The default OPTABLE: the 151 populated entries of 30_encoding.md R96 (assumption 1). -/
def optable : List Row :=
  optable0x ++ optable1x ++ optable2x ++ optable3x ++ optable4x ++ optable5x ++ optable6x ++ optable7x ++
  optable8x ++ optable9x ++ optableAx ++ optableBx ++ optableCx ++ optableDx ++ optableEx ++ optableFx

/-- The entry a table binds to an opcode byte, if it is populated (30_encoding.md R94, R98). -/
def lookup (table : List Row) (opcode : Byte) : Option Row :=
  table.find? (fun row => row.opcode == opcode)

/-! ## Modes, lengths and operand bytes -/

/-- The length in bytes of an instruction in each mode (30_encoding.md R91). -/
def Mode.length : Mode → Nat
  | .imp | .acc => 1
  | .imm | .zp | .zpx | .zpy | .indx | .indy | .rel => 2
  | .abs | .absx | .absy | .ind => 3

/-- The two-byte operand, little-endian: low byte first (30_encoding.md R92). -/
def operandWord (low high : Byte) : Word :=
  high ++ low

/-- The low byte of a word (00_scope.md R9). -/
def lowByte (w : Word) : Byte :=
  w.truncate 8

/-- The high byte of a word (00_scope.md R9). -/
def highByte (w : Word) : Byte :=
  (w >>> 8).truncate 8

/-- The operand of a mode, taken from the bytes that follow the opcode, with the bytes left over; `none` when too few
bytes are given (30_encoding.md R90, R92, R103). -/
def Mode.takeOperand : Mode → List Byte → Option (Operand × List Byte)
  | .imp, rest => some (.imp, rest)
  | .acc, rest => some (.acc, rest)
  | .imm, b :: rest => some (.imm b, rest)
  | .zp, b :: rest => some (.mem (.zp b), rest)
  | .zpx, b :: rest => some (.mem (.zpx b), rest)
  | .zpy, b :: rest => some (.mem (.zpy b), rest)
  | .indx, b :: rest => some (.mem (.indx b), rest)
  | .indy, b :: rest => some (.mem (.indy b), rest)
  | .rel, b :: rest => some (.rel b, rest)
  | .abs, b :: c :: rest => some (.mem (.abs (operandWord b c)), rest)
  | .absx, b :: c :: rest => some (.mem (.absx (operandWord b c)), rest)
  | .absy, b :: c :: rest => some (.mem (.absy (operandWord b c)), rest)
  | .ind, b :: c :: rest => some (.ind (operandWord b c), rest)
  | _, _ => none

/-- The instruction that a mnemonic and an operand make, if 30_encoding.md R96 binds the mnemonic to the operand's mode;
a pair it does not bind has no meaning (R99). -/
def Instr.ofParts : Mnemonic → Operand → Option Instr
  | .ora, .imm v => some (.oraImm v)
  | .ora, .mem (.zp v) => some (.oraZp v)
  | .ora, .mem (.zpx v) => some (.oraZpx v)
  | .ora, .mem (.abs v) => some (.oraAbs v)
  | .ora, .mem (.absx v) => some (.oraAbsx v)
  | .ora, .mem (.absy v) => some (.oraAbsy v)
  | .ora, .mem (.indx v) => some (.oraIndx v)
  | .ora, .mem (.indy v) => some (.oraIndy v)
  | .ora, _ => none
  | .and, .imm v => some (.andImm v)
  | .and, .mem (.zp v) => some (.andZp v)
  | .and, .mem (.zpx v) => some (.andZpx v)
  | .and, .mem (.abs v) => some (.andAbs v)
  | .and, .mem (.absx v) => some (.andAbsx v)
  | .and, .mem (.absy v) => some (.andAbsy v)
  | .and, .mem (.indx v) => some (.andIndx v)
  | .and, .mem (.indy v) => some (.andIndy v)
  | .and, _ => none
  | .eor, .imm v => some (.eorImm v)
  | .eor, .mem (.zp v) => some (.eorZp v)
  | .eor, .mem (.zpx v) => some (.eorZpx v)
  | .eor, .mem (.abs v) => some (.eorAbs v)
  | .eor, .mem (.absx v) => some (.eorAbsx v)
  | .eor, .mem (.absy v) => some (.eorAbsy v)
  | .eor, .mem (.indx v) => some (.eorIndx v)
  | .eor, .mem (.indy v) => some (.eorIndy v)
  | .eor, _ => none
  | .adc, .imm v => some (.adcImm v)
  | .adc, .mem (.zp v) => some (.adcZp v)
  | .adc, .mem (.zpx v) => some (.adcZpx v)
  | .adc, .mem (.abs v) => some (.adcAbs v)
  | .adc, .mem (.absx v) => some (.adcAbsx v)
  | .adc, .mem (.absy v) => some (.adcAbsy v)
  | .adc, .mem (.indx v) => some (.adcIndx v)
  | .adc, .mem (.indy v) => some (.adcIndy v)
  | .adc, _ => none
  | .sbc, .imm v => some (.sbcImm v)
  | .sbc, .mem (.zp v) => some (.sbcZp v)
  | .sbc, .mem (.zpx v) => some (.sbcZpx v)
  | .sbc, .mem (.abs v) => some (.sbcAbs v)
  | .sbc, .mem (.absx v) => some (.sbcAbsx v)
  | .sbc, .mem (.absy v) => some (.sbcAbsy v)
  | .sbc, .mem (.indx v) => some (.sbcIndx v)
  | .sbc, .mem (.indy v) => some (.sbcIndy v)
  | .sbc, _ => none
  | .cmp, .imm v => some (.cmpImm v)
  | .cmp, .mem (.zp v) => some (.cmpZp v)
  | .cmp, .mem (.zpx v) => some (.cmpZpx v)
  | .cmp, .mem (.abs v) => some (.cmpAbs v)
  | .cmp, .mem (.absx v) => some (.cmpAbsx v)
  | .cmp, .mem (.absy v) => some (.cmpAbsy v)
  | .cmp, .mem (.indx v) => some (.cmpIndx v)
  | .cmp, .mem (.indy v) => some (.cmpIndy v)
  | .cmp, _ => none
  | .cpx, .imm v => some (.cpxImm v)
  | .cpx, .mem (.zp v) => some (.cpxZp v)
  | .cpx, .mem (.abs v) => some (.cpxAbs v)
  | .cpx, _ => none
  | .cpy, .imm v => some (.cpyImm v)
  | .cpy, .mem (.zp v) => some (.cpyZp v)
  | .cpy, .mem (.abs v) => some (.cpyAbs v)
  | .cpy, _ => none
  | .bit, .mem (.zp v) => some (.bitZp v)
  | .bit, .mem (.abs v) => some (.bitAbs v)
  | .bit, _ => none
  | .asl, .acc => some .aslAcc
  | .asl, .mem (.zp v) => some (.aslZp v)
  | .asl, .mem (.zpx v) => some (.aslZpx v)
  | .asl, .mem (.abs v) => some (.aslAbs v)
  | .asl, .mem (.absx v) => some (.aslAbsx v)
  | .asl, _ => none
  | .lsr, .acc => some .lsrAcc
  | .lsr, .mem (.zp v) => some (.lsrZp v)
  | .lsr, .mem (.zpx v) => some (.lsrZpx v)
  | .lsr, .mem (.abs v) => some (.lsrAbs v)
  | .lsr, .mem (.absx v) => some (.lsrAbsx v)
  | .lsr, _ => none
  | .rol, .acc => some .rolAcc
  | .rol, .mem (.zp v) => some (.rolZp v)
  | .rol, .mem (.zpx v) => some (.rolZpx v)
  | .rol, .mem (.abs v) => some (.rolAbs v)
  | .rol, .mem (.absx v) => some (.rolAbsx v)
  | .rol, _ => none
  | .ror, .acc => some .rorAcc
  | .ror, .mem (.zp v) => some (.rorZp v)
  | .ror, .mem (.zpx v) => some (.rorZpx v)
  | .ror, .mem (.abs v) => some (.rorAbs v)
  | .ror, .mem (.absx v) => some (.rorAbsx v)
  | .ror, _ => none
  | .inc, .mem (.zp v) => some (.incZp v)
  | .inc, .mem (.zpx v) => some (.incZpx v)
  | .inc, .mem (.abs v) => some (.incAbs v)
  | .inc, .mem (.absx v) => some (.incAbsx v)
  | .inc, _ => none
  | .dec, .mem (.zp v) => some (.decZp v)
  | .dec, .mem (.zpx v) => some (.decZpx v)
  | .dec, .mem (.abs v) => some (.decAbs v)
  | .dec, .mem (.absx v) => some (.decAbsx v)
  | .dec, _ => none
  | .inx, .imp => some .inx
  | .inx, _ => none
  | .iny, .imp => some .iny
  | .iny, _ => none
  | .dex, .imp => some .dex
  | .dex, _ => none
  | .dey, .imp => some .dey
  | .dey, _ => none
  | .lda, .imm v => some (.ldaImm v)
  | .lda, .mem (.zp v) => some (.ldaZp v)
  | .lda, .mem (.zpx v) => some (.ldaZpx v)
  | .lda, .mem (.abs v) => some (.ldaAbs v)
  | .lda, .mem (.absx v) => some (.ldaAbsx v)
  | .lda, .mem (.absy v) => some (.ldaAbsy v)
  | .lda, .mem (.indx v) => some (.ldaIndx v)
  | .lda, .mem (.indy v) => some (.ldaIndy v)
  | .lda, _ => none
  | .ldx, .imm v => some (.ldxImm v)
  | .ldx, .mem (.zp v) => some (.ldxZp v)
  | .ldx, .mem (.zpy v) => some (.ldxZpy v)
  | .ldx, .mem (.abs v) => some (.ldxAbs v)
  | .ldx, .mem (.absy v) => some (.ldxAbsy v)
  | .ldx, _ => none
  | .ldy, .imm v => some (.ldyImm v)
  | .ldy, .mem (.zp v) => some (.ldyZp v)
  | .ldy, .mem (.zpx v) => some (.ldyZpx v)
  | .ldy, .mem (.abs v) => some (.ldyAbs v)
  | .ldy, .mem (.absx v) => some (.ldyAbsx v)
  | .ldy, _ => none
  | .sta, .mem (.zp v) => some (.staZp v)
  | .sta, .mem (.zpx v) => some (.staZpx v)
  | .sta, .mem (.abs v) => some (.staAbs v)
  | .sta, .mem (.absx v) => some (.staAbsx v)
  | .sta, .mem (.absy v) => some (.staAbsy v)
  | .sta, .mem (.indx v) => some (.staIndx v)
  | .sta, .mem (.indy v) => some (.staIndy v)
  | .sta, _ => none
  | .stx, .mem (.zp v) => some (.stxZp v)
  | .stx, .mem (.zpy v) => some (.stxZpy v)
  | .stx, .mem (.abs v) => some (.stxAbs v)
  | .stx, _ => none
  | .sty, .mem (.zp v) => some (.styZp v)
  | .sty, .mem (.zpx v) => some (.styZpx v)
  | .sty, .mem (.abs v) => some (.styAbs v)
  | .sty, _ => none
  | .tax, .imp => some .tax
  | .tax, _ => none
  | .txa, .imp => some .txa
  | .txa, _ => none
  | .tay, .imp => some .tay
  | .tay, _ => none
  | .tya, .imp => some .tya
  | .tya, _ => none
  | .tsx, .imp => some .tsx
  | .tsx, _ => none
  | .txs, .imp => some .txs
  | .txs, _ => none
  | .clc, .imp => some .clc
  | .clc, _ => none
  | .sec, .imp => some .sec
  | .sec, _ => none
  | .cli, .imp => some .cli
  | .cli, _ => none
  | .sei, .imp => some .sei
  | .sei, _ => none
  | .cld, .imp => some .cld
  | .cld, _ => none
  | .sed, .imp => some .sed
  | .sed, _ => none
  | .clv, .imp => some .clv
  | .clv, _ => none
  | .bpl, .rel v => some (.bpl v)
  | .bpl, _ => none
  | .bmi, .rel v => some (.bmi v)
  | .bmi, _ => none
  | .bvc, .rel v => some (.bvc v)
  | .bvc, _ => none
  | .bvs, .rel v => some (.bvs v)
  | .bvs, _ => none
  | .bcc, .rel v => some (.bcc v)
  | .bcc, _ => none
  | .bcs, .rel v => some (.bcs v)
  | .bcs, _ => none
  | .bne, .rel v => some (.bne v)
  | .bne, _ => none
  | .beq, .rel v => some (.beq v)
  | .beq, _ => none
  | .nop, .imp => some .nop
  | .nop, _ => none
  | .pha, .imp => some .pha
  | .pha, _ => none
  | .pla, .imp => some .pla
  | .pla, _ => none
  | .php, .imp => some .php
  | .php, _ => none
  | .plp, .imp => some .plp
  | .plp, _ => none
  | .jsr, .mem (.abs v) => some (.jsr v)
  | .jsr, _ => none
  | .rts, .imp => some .rts
  | .rts, _ => none
  | .jmp, .mem (.abs v) => some (.jmpAbs v)
  | .jmp, .ind v => some (.jmpInd v)
  | .jmp, _ => none
  | .brk, .imp => some .brk
  | .brk, _ => none
  | .rti, .imp => some .rti
  | .rti, _ => none

/-! ## The decoder -/

/-- Why the decoder rejects a list of bytes. `illegal`: the opcode is unpopulated (30_encoding.md R97).
`truncated`: fewer bytes were given than the opcode's length. `modeNotBound`: a table other than the default binds the
opcode to a mnemonic in a mode 30_encoding.md R96 gives it no rule for (R99). -/
inductive DecodeError where
  | illegal (opcode : Byte)
  | truncated
  | modeNotBound (opcode : Byte)
  deriving DecidableEq, Repr

/-- Decode the first instruction of a list of bytes with a given table, and return the bytes left over
(30_encoding.md R93, R103). Total on any bytes. -/
def decodeWith (table : List Row) : List Byte → Except DecodeError (Instr × List Byte)
  | [] => .error .truncated
  | opcode :: bytes =>
    match lookup table opcode with
    | none => .error (.illegal opcode)
    | some row =>
      match row.mode.takeOperand bytes with
      | none => .error .truncated
      | some (operand, rest) =>
        match Instr.ofParts row.mnemonic operand with
        | none => .error (.modeNotBound opcode)
        | some i => .ok (i, rest)

/-- Decode with the default table (30_encoding.md R96). -/
def decode (bytes : List Byte) : Except DecodeError (Instr × List Byte) :=
  decodeWith optable bytes

/-- The length the decoder tells from the opcode byte alone (30_encoding.md R93); an unpopulated opcode has none. -/
def instrLength (table : List Row) (opcode : Byte) : Option Nat :=
  (lookup table opcode).map (fun row => row.mode.length)

/-! ## The encoder -/

/-- The operand bytes, in the order they follow the opcode (30_encoding.md R90). -/
def Operand.bytes : Operand → List Byte
  | .imp => []
  | .acc => []
  | .imm b => [b]
  | .mem (.zp b) => [b]
  | .mem (.zpx b) => [b]
  | .mem (.zpy b) => [b]
  | .mem (.indx b) => [b]
  | .mem (.indy b) => [b]
  | .mem (.abs w) => [lowByte w, highByte w]
  | .mem (.absx w) => [lowByte w, highByte w]
  | .mem (.absy w) => [lowByte w, highByte w]
  | .rel b => [b]
  | .ind w => [lowByte w, highByte w]

/-- The row of a table that binds a mnemonic in a mode. -/
def rowFor (table : List Row) (mnemonic : Mnemonic) (mode : Mode) : Option Row :=
  table.find? (fun row => row.mnemonic == mnemonic && row.mode == mode)

/-- The bytes of an instruction under a given table; `none` where the table does not populate it (30_encoding.md R90, R96). -/
def encodeWith (table : List Row) (i : Instr) : Option (List Byte) :=
  (rowFor table i.mnemonic i.mode).map (fun row => row.opcode :: i.operand.bytes)

/-- The bytes of an instruction under the default table, which populates every one. -/
def encode (i : Instr) : List Byte :=
  (encodeWith optable i).getD []

/-! ## The host's view of an instruction word -/

/-- The first three bytes of a number of `nbits` bits, bit 0 the least significant bit of the first byte; bits above
`nbits` are zero. Three bytes is the longest instruction (30_encoding.md R100). -/
def tableWordBytes (nbits w : Nat) : List Byte :=
  let v := w % 2 ^ nbits
  [BitVec.ofNat 8 v, BitVec.ofNat 8 (v / 256), BitVec.ofNat 8 (v / 65536)]

/-- The instruction the decoder reads from an opcode-table word. -/
def decodeTableWord (nbits w : Nat) : Option Instr :=
  match decode (tableWordBytes nbits w) with
  | .ok (i, _) => some i
  | .error _ => none

end Sys2Proof
end

