-- ==== Sys2Proof/Machine/Memory.lean ====
section
/-! DEFINITION. Byte memory as plain data: a list of (address, byte) cells in one canonical form, addresses strictly rising
and no cell holding what an unlisted address reads as. It holds the RAM array (10_state.md R30) and the three ROM images
(R31), each keyed by the offset from its start. -/

namespace Sys2Proof.Machine

/-- Byte memory in canonical form. -/
abbrev Memory := List Host.Cell

/-- What an address that is not listed reads as. It is a matter of representation: every content of RAM and of a ROM can
be written as such a list. That State.reset lists nothing is assumptions 6 and 7. -/
def Memory.unlisted : Byte :=
  0

/-- The byte at an address. -/
def Memory.read : Memory → Nat → Byte
  | [], _ => Memory.unlisted
  | (k, b) :: rest, a => if k = a then b else Memory.read rest a

/-- Put a cell before a memory, unless it holds what an unlisted address reads as. -/
def Memory.cons (a : Nat) (v : Byte) (m : Memory) : Memory :=
  if v = Memory.unlisted then m else (a, v) :: m

/-- Write a byte at an address, keeping the canonical form. -/
def Memory.write : Memory → Nat → Byte → Memory
  | [], a, v => Memory.cons a v []
  | (k, b) :: rest, a, v =>
    if k < a then (k, b) :: Memory.write rest a v
    else if k = a then Memory.cons a v rest
    else Memory.cons a v ((k, b) :: rest)

/-- The canonical form with every address from `low` up to below `size`. -/
def Memory.canonicalFrom (size : Nat) : Nat → Memory → Bool
  | _, [] => true
  | low, (k, b) :: rest =>
    decide (low ≤ k) && decide (k < size) && decide (b ≠ Memory.unlisted) && Memory.canonicalFrom size (k + 1) rest

/-- The canonical form of a memory of `size` bytes: addresses strictly rising, below `size`, no cell equal to what an
unlisted address reads as. -/
def Memory.canonical (size : Nat) (m : Memory) : Bool :=
  Memory.canonicalFrom size 0 m

/-- The canonical form of the 65536-byte RAM array (10_state.md R30). -/
def Memory.wf (m : Memory) : Bool :=
  Memory.canonical 65536 m

/-- The memory that holds a list of bytes at consecutive addresses from `start`. -/
def Memory.ofBytes (start : Nat) : List Byte → Memory
  | [] => []
  | b :: bytes => Memory.cons start b (Memory.ofBytes (start + 1) bytes)

/-- The memory after a list of (address, byte) writes in order, starting from an empty one. -/
def Memory.ofCells (cells : List (Word × Byte)) : Memory :=
  cells.foldl (fun m cell => m.write cell.1.toNat cell.2) []

end Sys2Proof.Machine
end

