-- ==== Sys2Proof/Machine/Params.lean ====
section
/-! DEFINITION. The parameters a machine is built with and that no instruction changes (00_scope.md R6; 10_state.md R31,
R32), and their default values. -/

namespace Sys2Proof.Machine

/-- The `OPEN` parameters of 00_scope.md R6 that the step function reads. They are arguments of the model; the type of
`step` leaves no other place for them than a field of the state (assumption 8). -/
structure Params where
  /-- PORT_ADDR: the address of the processor port byte (10_state.md R33). -/
  portAddr  : Word
  /-- BRK_VECTOR: the address BRK reads its target from (45_stack_control.md R224). -/
  brkVector : Word
  /-- OPTABLE: the populated entries (10_state.md R32). -/
  optable   : List Row
  /-- KERNAL: the 8192-byte image, by offset from 0xE000 (10_state.md R31). -/
  kernal    : Memory
  /-- BASIC: the 8192-byte image, by offset from 0xA000 (10_state.md R31). -/
  basic     : Memory
  /-- CHARGEN: the 4096-byte image, by offset from 0xD000 (10_state.md R31). -/
  chargen   : Memory
  deriving DecidableEq, Repr

/-- KERNAL_SIZE and BASIC_SIZE (00_scope.md R6). -/
def romSize : Nat :=
  8192

/-- CHARGEN_SIZE (00_scope.md R6). -/
def chargenSize : Nat :=
  4096

/-- The parameters' default values (00_scope.md R6: PORT_ADDR 0x0001, BRK_VECTOR 0xFFFE, the table of 30_encoding.md R96;
assumptions 1 to 3). The ROM images have no default; an all-zero image stands for each (assumption 7). -/
def defaultParams : Params where
  portAddr  := 0x0001
  brkVector := 0xFFFE
  optable   := optable
  kernal    := []
  basic     := []
  chargen   := []

end Sys2Proof.Machine
end

