-- ==== Sys2Proof/Machine/State.lean ====
section
/-! DEFINITION. The state of the core as plain data (10_state.md R20 to R36), the reasons a step can stop, and the state
right after construction (R35). -/

namespace Sys2Proof.Machine

/-- RUN, the run status of the engine (10_state.md R36). -/
inductive RunStatus where
  /-- the engine fetches at PC -/
  | running
  /-- an unpopulated opcode was fetched at `pc` (60_exceptions.md R240, R253) -/
  | halted (pc : Word) (opcode : Byte)
  deriving DecidableEq, Repr

/-- The two collaborators behind the I/O window (20_memory.md R58). -/
inductive Device where
  | video
  | sound
  deriving DecidableEq, Repr

/-- One access to a collaborator, as the collaborator sees it (20_memory.md R58, R66): the device, the bus address, the
register index and the byte. The index is opaque to the core (93_implementation_defined.md U6; assumption 11). -/
inductive IoEvent where
  | read  (device : Device) (addr : Word) (index : Nat) (value : Byte)
  | write (device : Device) (addr : Word) (index : Nat) (value : Byte)
  deriving DecidableEq, Repr

/-- The state: the spec's tuple (A, X, Y, SP, PC, P, RAM, RUN) (10_state.md R34), the parameters (00_scope.md R6), and the
model's own record of the environment behind the I/O window (assumptions 9 and 10). -/
structure State where
  /-- the accumulator (R20) -/
  a       : Byte
  /-- the index register X (R20) -/
  x       : Byte
  /-- the index register Y (R20) -/
  y       : Byte
  /-- the stack pointer, an offset into the stack page (R21) -/
  sp      : Byte
  /-- the program counter: the address of the opcode byte (R22) -/
  pc      : Word
  /-- the status register, all eight bits stored (R23, R25) -/
  p       : Byte
  /-- the 65536-byte RAM array, the processor port among it (R30, R33) -/
  ram     : Memory
  /-- the run status (R36) -/
  run     : RunStatus
  /-- the parameters: fixed after construction (00_scope.md R6) -/
  params  : Params
  /-- model's own: answers the environment has decided for the next collaborator reads, oldest first (assumption 9) -/
  ioIn    : List Byte
  /-- model's own: how many answers were drawn from the free value (assumption 9) -/
  ioDraws : Nat
  /-- model's own: the collaborator accesses made so far, oldest first (assumption 10) -/
  ioLog   : List IoEvent
  deriving DecidableEq, Repr

/-- Why a step faults. -/
inductive Fault where
  /-- `IllegalOpcode(pc, opcode)`, reported by `step` on a machine that is already halted; the state is unchanged
  (60_exceptions.md R253). The step that fetches the unpopulated opcode is a next state with RUN = Halted
  (R240; assumption 12). Raised by `step` only. Safe: the spec gives a halted machine no further step. -/
  | illegalOpcode (pc : Word) (opcode : Byte)
  deriving DecidableEq, Repr

/-- Why a step is refused. -/
inductive Refusal where
  /-- An arm of `exec` whose instruction has no meaning yet. Raised by no arm. Safe. -/
  | notModelled (mnemonic : String)
  /-- The machine's own OPTABLE binds the opcode to a mnemonic in a mode that has no rule (30_encoding.md R99,
  93_implementation_defined.md U11: "stuck (no result), never a value"). Raised by `step` only, never with the default
  table. Safe. -/
  | modeNotBound (opcode : Byte)
  deriving DecidableEq, Repr

/-- The machine right after construction with the default parameters (10_state.md R35). PC is the word at 0xFFFC read
through the banked bus, which is 0x0000 here; P has bit 5 set; RUN is Running. The registers, the other bits of P and RAM
have no value in the spec: those below are assumptions 5 and 6 (DESIGN CHOICE, unsafe), and no statement rests on them. -/
def State.reset : State where
  a       := 0x00
  x       := 0x00
  y       := 0x00
  sp      := 0x00
  pc      := 0x0000
  p       := 0x20
  ram     := []
  run     := .running
  params  := defaultParams
  ioIn    := []
  ioDraws := 0
  ioLog   := []

end Sys2Proof.Machine
end

