-- ==== Sys2Proof/Machine/Flags.lean ====
section
/-! DEFINITION. The status byte bit by bit (10_state.md R23 to R27), and every 8-bit computation with its flags: each takes
the operands and the status byte and returns the result and the new status byte. -/

namespace Sys2Proof.Machine

/-- The eight bits of the status register (10_state.md R23). -/
inductive Flag where
  | carry | zero | interrupt | decimal | brk | unused | overflow | negative
  deriving DecidableEq, Repr

/-- The bit number of a flag (10_state.md R23). -/
def Flag.bit : Flag → Nat
  | .carry => 0
  | .zero => 1
  | .interrupt => 2
  | .decimal => 3
  | .brk => 4
  | .unused => 5
  | .overflow => 6
  | .negative => 7

/-- The mask of a flag. -/
def Flag.mask (f : Flag) : Byte :=
  1#8 <<< f.bit

/-- The value of a flag in a status byte. -/
def getFlag (p : Byte) (f : Flag) : Bool :=
  p.getLsbD f.bit

/-- Write one flag and leave the other seven bits as they were (10_state.md R27). -/
def setFlag (f : Flag) (value : Bool) (p : Byte) : Byte :=
  if value then p ||| f.mask else p &&& ~~~f.mask

/-- `deriveNZ(b)`: Negative is bit 7 of the byte, Zero is whether it is 0 (10_state.md R26). -/
def deriveNZ (b : Byte) (p : Byte) : Byte :=
  setFlag .zero (b == 0) (setFlag .negative b.msb p)

/-- The exact sum of two bytes and a carry, 0 to 511 (41_logic_arith.md R134). -/
def carrySum (a m : Byte) (carry : Bool) : Nat :=
  a.toNat + m.toNat + carry.toNat

/-- `ADC`: the result is the low eight bits of the exact sum, Carry its bit 8, Overflow set iff the operands have the same
sign and the result's differs (41_logic_arith.md R134). Decimal is not read (R136, assumption 14). -/
def addWithCarry (a m p : Byte) : Byte × Byte :=
  let sum := carrySum a m (getFlag p .carry)
  let r := BitVec.ofNat 8 sum
  (r, deriveNZ r (setFlag .overflow (a.msb == m.msb && r.msb != a.msb) (setFlag .carry (decide (255 < sum)) p)))

/-- `SBC`: `ADC` of the one's complement of the operand (41_logic_arith.md R135). -/
def subtractWithCarry (a m p : Byte) : Byte × Byte :=
  addWithCarry a (m ^^^ 0xFF) p

/-- The compare family: Carry iff the operand is at most the register, Negative and Zero from the truncated difference
(41_logic_arith.md R137 to R139). -/
def compareFlags (reg m p : Byte) : Byte :=
  deriveNZ (reg - m) (setFlag .carry (decide (m ≤ reg)) p)

/-- `BIT`: Zero from `A & m`, Negative and Overflow from bits 7 and 6 of the operand (41_logic_arith.md R140). -/
def bitTestFlags (a m p : Byte) : Byte :=
  setFlag .overflow (m.getLsbD 6) (setFlag .negative (m.getLsbD 7) (setFlag .zero (a &&& m == 0) p))

/-- A shift or rotate by one place with its flags: Carry is the bit shifted out, Negative and Zero from the result
(42_shift_incdec.md section 2). -/
def shifted (r : Byte) (out : Bool) (p : Byte) : Byte × Byte :=
  (r, deriveNZ r (setFlag .carry out p))

/-- `ASL` (42_shift_incdec.md R151). -/
def shiftLeft (v p : Byte) : Byte × Byte :=
  shifted (v <<< 1) (v.getLsbD 7) p

/-- `LSR` (42_shift_incdec.md R152). -/
def shiftRight (v p : Byte) : Byte × Byte :=
  shifted (v >>> 1) (v.getLsbD 0) p

/-- `ROL`: the old carry enters at bit 0 (42_shift_incdec.md R153). -/
def rotateLeft (v p : Byte) : Byte × Byte :=
  shifted ((v <<< 1) ||| (if getFlag p .carry then 0x01 else 0x00)) (v.getLsbD 7) p

/-- `ROR`: the old carry enters at bit 7 (42_shift_incdec.md R154). -/
def rotateRight (v p : Byte) : Byte × Byte :=
  shifted ((v >>> 1) ||| (if getFlag p .carry then 0x80 else 0x00)) (v.getLsbD 0) p

/-- `INC`: add one, no carry effect (42_shift_incdec.md R155). -/
def increment (v p : Byte) : Byte × Byte :=
  (v + 1, deriveNZ (v + 1) p)

/-- `DEC`: subtract one, no carry effect (42_shift_incdec.md R156). -/
def decrement (v p : Byte) : Byte × Byte :=
  (v - 1, deriveNZ (v - 1) p)

end Sys2Proof.Machine
end

