-- ==== Sys2Proof/Machine/Ops.lean ====
section
/-! DEFINITION. The named operations over registers and the bus: register setters, the bank decode, `BusRead` and
`BusWrite`, word reads, the stack, taking the illegal-opcode exception, the entry of `BRK` and the return from it. -/

namespace Sys2Proof.Machine

/-! ## Registers (10_state.md R20 to R23) -/

def State.setA (v : Byte) (s : State) : State := { s with a := v }
def State.setX (v : Byte) (s : State) : State := { s with x := v }
def State.setY (v : Byte) (s : State) : State := { s with y := v }
def State.setSp (v : Byte) (s : State) : State := { s with sp := v }
def State.setPc (v : Word) (s : State) : State := { s with pc := v }
def State.setP (v : Byte) (s : State) : State := { s with p := v }
def State.setRam (v : Memory) (s : State) : State := { s with ram := v }
def State.setRun (v : RunStatus) (s : State) : State := { s with run := v }
def State.setParams (v : Params) (s : State) : State := { s with params := v }
def State.setIoIn (v : List Byte) (s : State) : State := { s with ioIn := v }
def State.setIoDraws (v : Nat) (s : State) : State := { s with ioDraws := v }
def State.setIoLog (v : List IoEvent) (s : State) : State := { s with ioLog := v }

/-- The value of a flag. -/
def State.flag (s : State) (f : Flag) : Bool :=
  getFlag s.p f

/-- Write one flag (10_state.md R27). -/
def State.setFlag (f : Flag) (value : Bool) (s : State) : State :=
  s.setP (Machine.setFlag f value s.p)

/-- Set Negative and Zero from a result byte (10_state.md R26). -/
def State.setNZ (b : Byte) (s : State) : State :=
  s.setP (deriveNZ b s.p)

/-- Advance PC by an instruction's own length, mod 65536 (40_addressing.md R124, 10_state.md R22). -/
def State.advance (n : Nat) (s : State) : State :=
  s.setPc (s.pc + BitVec.ofNat 16 n)

/-! ## The bank decode (20_memory.md R51 to R53, R56, R57) -/

/-- The RAM byte at an address: `peek` (20_memory.md R70). -/
def State.peek (s : State) (addr : Word) : Byte :=
  s.ram.read addr.toNat

/-- Write a RAM byte directly: `poke` (20_memory.md R70). -/
def State.poke (addr : Word) (v : Byte) (s : State) : State :=
  s.setRam (s.ram.write addr.toNat v)

/-- The processor port byte, RAM[PORT_ADDR], as it is now (10_state.md R33, 20_memory.md R56). -/
def State.port (s : State) : Byte :=
  s.peek s.params.portAddr

/-- The storage that backs an address for reads. -/
inductive Bank where
  | ram | basic | chargen | kernal | io
  deriving DecidableEq, Repr

/-- The bank decode: the storage that a read of `addr` sees when the processor port holds `port` (20_memory.md R51). -/
def bankOf (port : Byte) (addr : Word) : Bank :=
  let lo2 := port.extractLsb' 0 2
  if 0xA000 ≤ addr ∧ addr ≤ 0xBFFF then
    if lo2 ≠ 0 then .basic else .ram
  else if 0xD000 ≤ addr ∧ addr ≤ 0xDFFF then
    if lo2 = 0 then .ram
    else if port.getLsbD 2 then .io else .chargen
  else if 0xE000 ≤ addr then
    if port.getLsbD 1 then .kernal else .ram
  else .ram

/-- The storage behind an address now; re-derived at every access, never cached (20_memory.md R56). -/
def State.bank (s : State) (addr : Word) : Bank :=
  bankOf s.port addr

/-! ## The collaborators (20_memory.md R58) -/

/-- The collaborator that owns an address of the I/O window. -/
def ioDevice (addr : Word) : Device :=
  if addr < 0xD400 then .video else .sound

/-- The register index the collaborator is given. The video formula is the source's literal, unaudited: no claim rests on
it (93_implementation_defined.md U6; assumption 11). -/
def ioIndex (addr : Word) : Nat :=
  if addr < 0xD400 then (addr.toNat - 0xD000) / 64 else addr.toNat - 0xD400

/-- The byte the environment answers to the next collaborator read, and the state with that answer used up: the oldest
queued answer, or else a fresh free value (assumption 9). -/
def State.ioAnswer (s : State) : Byte × State :=
  match s.ioIn with
  | b :: rest => (b, s.setIoIn rest)
  | [] => (Config.ioDraw s.ioDraws, s.setIoDraws (s.ioDraws + 1))

/-- `readRegister`: the answer, recorded as an event. -/
def State.ioRead (s : State) (addr : Word) : Byte × State :=
  let answer := s.ioAnswer
  (answer.1, answer.2.setIoLog (s.ioLog ++ [.read (ioDevice addr) addr (ioIndex addr) answer.1]))

/-- `writeRegister`: an event handed to the environment; RAM is not written (20_memory.md R53). -/
def State.ioWrite (addr : Word) (v : Byte) (s : State) : State :=
  s.setIoLog (s.ioLog ++ [.write (ioDevice addr) addr (ioIndex addr) v])

/-! ## Bus accesses -/

/-- `BusRead(addr)` (20_memory.md R51, R52). -/
def State.busRead (s : State) (addr : Word) : Byte × State :=
  match s.bank addr with
  | .ram => (s.peek addr, s)
  | .basic => (s.params.basic.read (addr.toNat - 0xA000), s)
  | .chargen => (s.params.chargen.read (addr.toNat - 0xD000), s)
  | .kernal => (s.params.kernal.read (addr.toNat - 0xE000), s)
  | .io => s.ioRead addr

/-- `BusWrite(addr, v)`: RAM whatever a read of the address sees, except in the selected I/O window (20_memory.md R53). -/
def State.busWrite (addr : Word) (v : Byte) (s : State) : State :=
  match s.bank addr with
  | .io => s.ioWrite addr v
  | .ram | .basic | .chargen | .kernal => s.poke addr v

/-- `MemRead(addr, 2)`, `readWord`: two bus reads, low byte first, the second at `addr + 1` mod 65536
(20_memory.md R54). -/
def State.readWord (s : State) (addr : Word) : Word × State :=
  let low := s.busRead addr
  let high := low.2.busRead (addr + 1)
  (operandWord low.1 high.1, high.2)

/-- `MemWrite(addr, 2, w)`, `writeWord`: low byte first; no instruction uses it (20_memory.md R55). -/
def State.writeWord (addr : Word) (w : Word) (s : State) : State :=
  (s.busWrite addr (lowByte w)).busWrite (addr + 1) (highByte w)

/-! ## The stack (45_stack_control.md R215, R216) -/

/-- STACK_BASE (10_state.md R21; assumption 4). -/
def stackBase : Word :=
  0x0100

/-- The bus address of the stack slot a stack pointer names (10_state.md R21). -/
def stackSlot (sp : Byte) : Word :=
  stackBase + sp.zeroExtend 16

/-- `Push(v)`: write at the slot SP names, then decrement SP mod 256. -/
def State.push (v : Byte) (s : State) : State :=
  (s.busWrite (stackSlot s.sp) v).setSp (s.sp - 1)

/-- `Pull()`: increment SP mod 256, then read the slot it names. -/
def State.pull (s : State) : Byte × State :=
  (s.setSp (s.sp + 1)).busRead (stackSlot (s.sp + 1))

/-- Push a word, high byte first (45_stack_control.md R221, R224). -/
def State.pushWord (w : Word) (s : State) : State :=
  (s.push (highByte w)).push (lowByte w)

/-- Pull a word, low byte first (45_stack_control.md R222, R225). -/
def State.pullWord (s : State) : Word × State :=
  let low := s.pull
  let high := low.2.pull
  (operandWord low.1 high.1, high.2)

/-! ## Taking an exception and returning from one (60_exceptions.md R240, R245, R246) -/

/-- `raise IllegalOpcode(PC, opcode)`: RUN becomes Halted, and nothing else changes (60_exceptions.md R240, R245). -/
def State.raiseIllegal (opcode : Byte) (s : State) : State :=
  s.setRun (.halted s.pc opcode)

/-- The entry of `BRK`, the machine's one trap through a vector: set Break and Interrupt-Disable, push `PC + 2` high byte
first, push the status byte just modified, load PC from the vector word (45_stack_control.md R224, 60_exceptions.md R245). -/
def State.enterBreak (s : State) : State :=
  let marked := (s.setFlag .brk true).setFlag .interrupt true
  let saved := (marked.pushWord (s.pc + 2)).push marked.p
  let target := saved.readWord s.params.brkVector
  target.2.setPc target.1

/-- The return from it: pull all eight bits of P, then PC low, then PC high, with no adjustment
(45_stack_control.md R225, 60_exceptions.md R246). -/
def State.returnFromBreak (s : State) : State :=
  let status := s.pull
  let target := (status.2.setP status.1).pullWord
  target.2.setPc target.1

end Sys2Proof.Machine
end

