-- ==== Sys2Proof/Machine/Operands.lean ====
section
/-! DEFINITION. The addressing-mode resolvers (40_addressing.md), the locations they yield, and the shapes the instruction
rules share: an operand read, a read-modify-write, a store, a branch. The operand bytes were read by the fetch, each exactly
once (20_memory.md R63), and stand in the instruction; PC is still the address of the opcode (40_addressing.md R124). -/

namespace Sys2Proof.Machine

/-- A writable location: the accumulator or a bus address (40_addressing.md R110). -/
inductive Loc where
  | acc
  | bus (addr : Word)
  deriving DecidableEq, Repr

/-- `Load(loc)` (40_addressing.md R110). -/
def Loc.load : Loc → State → Byte × State
  | .acc, s => (s.a, s)
  | .bus addr, s => s.busRead addr

/-- `Store(loc, v)` (40_addressing.md R110). -/
def Loc.store : Loc → Byte → State → State
  | .acc, v, s => s.setA v
  | .bus addr, v, s => s.busWrite addr v

/-- A byte as a page-zero address: `zext_16` (00_scope.md R10). -/
def zeroPage (b : Byte) : Word :=
  b.zeroExtend 16

/-- `sext_16` (00_scope.md R10). -/
def signExtend16 (b : Byte) : Word :=
  b.signExtend 16

/-- The bus address a memory form resolves to, and the state after the pointer reads of the two indirect modes
(40_addressing.md R112 to R117, R119, R120). A zero-page index sum wraps in page zero; every other sum is mod 65536; a
pointer's high byte is at the pointer plus one, 0x0100 for a pointer at 0xFF. -/
def State.resolve (s : State) : MemForm → Word × State
  | .zp addr => (zeroPage addr, s)
  | .zpx addr => (zeroPage (addr + s.x), s)
  | .zpy addr => (zeroPage (addr + s.y), s)
  | .abs addr => (addr, s)
  | .absx addr => (addr + zeroPage s.x, s)
  | .absy addr => (addr + zeroPage s.y, s)
  | .indx ptr => s.readWord (zeroPage (ptr + s.x))
  | .indy ptr =>
    let base := s.readWord (zeroPage ptr)
    (base.1 + zeroPage s.y, base.2)

/-- The operand byte of a memory form: resolve, then `Load` once (20_memory.md R63). -/
def State.loadForm (s : State) (form : MemForm) : Byte × State :=
  let addr := s.resolve form
  (Loc.bus addr.1).load addr.2

/-- The target of a branch: `PC + 2 + sext_16(off)` mod 65536 (40_addressing.md R121). -/
def branchTarget (pc : Word) (off : Byte) : Word :=
  pc + 2 + signExtend16 off

/-- The target of `JMP` indirect: the word stored at the pointer, with no page wrap (40_addressing.md R123). -/
def State.indirectTarget (s : State) (ptr : Word) : Word × State :=
  s.readWord ptr

/-! ## The shapes of the instruction rules -/

/-- The length of an instruction in a memory form (30_encoding.md R91). -/
def formLength (form : MemForm) : Nat :=
  form.mode.length

/-- An Immediate instruction: its operand is the byte after the opcode, which the fetch has read (40_addressing.md R111;
41_logic_arith.md R130). -/
def immediate (body : Byte → State → State) (value : Byte) (s : State) : State :=
  (body value s).advance Mode.imm.length

/-- An instruction that reads its memory operand once and stores nothing there (41_logic_arith.md R130,
43_load_store_transfer.md R170). -/
def fromMemory (body : Byte → State → State) (form : MemForm) (s : State) : State :=
  let m := s.loadForm form
  (body m.1 m.2).advance (formLength form)

/-- A read-modify-write of a location: `Load` once, compute the result and the status byte, `Store` once
(42_shift_incdec.md R150). -/
def modify (op : Byte → Byte → Byte × Byte) (loc : Loc) (s : State) : State :=
  let v := loc.load s
  let r := op v.1 v.2.p
  (loc.store r.1 v.2).setP r.2

/-- A read-modify-write in Accumulator mode. -/
def modifyAcc (op : Byte → Byte → Byte × Byte) (s : State) : State :=
  (modify op .acc s).advance Mode.acc.length

/-- A read-modify-write of a memory byte. -/
def modifyMemory (op : Byte → Byte → Byte × Byte) (form : MemForm) (s : State) : State :=
  let addr := s.resolve form
  (modify op (.bus addr.1) addr.2).advance (formLength form)

/-- A store of a register byte: one write, no read of the target (43_load_store_transfer.md R170). -/
def storeTo (value : Byte) (form : MemForm) (s : State) : State :=
  let addr := s.resolve form
  ((Loc.bus addr.1).store value addr.2).advance (formLength form)

/-- An Implied instruction that only changes registers and flags. -/
def implied (body : State → State) (s : State) : State :=
  (body s).advance Mode.imp.length

/-- A conditional branch: the target if the condition holds, else `PC + 2` (44_flag_branch.md R198). -/
def branchIf (cond : Bool) (off : Byte) (s : State) : State :=
  s.setPc (if cond then branchTarget s.pc off else s.pc + 2)

end Sys2Proof.Machine
end

