-- ==== Sys2Proof/Machine/FlagBranch.lean ====
section
/-! DEFINITION. Flag instructions, conditional branches and NOP (44_flag_branch.md R190 to R207). -/

namespace Sys2Proof.Machine

/-! ## Flag instructions (R190 to R197) -/

def execClc (s : State) : Host.Outcome State Fault Refusal :=
  .next (implied (State.setFlag .carry false) s)

def execSec (s : State) : Host.Outcome State Fault Refusal :=
  .next (implied (State.setFlag .carry true) s)

def execCli (s : State) : Host.Outcome State Fault Refusal :=
  .next (implied (State.setFlag .interrupt false) s)

def execSei (s : State) : Host.Outcome State Fault Refusal :=
  .next (implied (State.setFlag .interrupt true) s)

def execCld (s : State) : Host.Outcome State Fault Refusal :=
  .next (implied (State.setFlag .decimal false) s)

def execSed (s : State) : Host.Outcome State Fault Refusal :=
  .next (implied (State.setFlag .decimal true) s)

def execClv (s : State) : Host.Outcome State Fault Refusal :=
  .next (implied (State.setFlag .overflow false) s)

/-! ## Conditional branches (R198 to R206) -/

def execBpl (off : Byte) (s : State) : Host.Outcome State Fault Refusal :=
  .next (branchIf (!s.flag .negative) off s)

def execBmi (off : Byte) (s : State) : Host.Outcome State Fault Refusal :=
  .next (branchIf (s.flag .negative) off s)

def execBvc (off : Byte) (s : State) : Host.Outcome State Fault Refusal :=
  .next (branchIf (!s.flag .overflow) off s)

def execBvs (off : Byte) (s : State) : Host.Outcome State Fault Refusal :=
  .next (branchIf (s.flag .overflow) off s)

def execBcc (off : Byte) (s : State) : Host.Outcome State Fault Refusal :=
  .next (branchIf (!s.flag .carry) off s)

def execBcs (off : Byte) (s : State) : Host.Outcome State Fault Refusal :=
  .next (branchIf (s.flag .carry) off s)

def execBne (off : Byte) (s : State) : Host.Outcome State Fault Refusal :=
  .next (branchIf (!s.flag .zero) off s)

def execBeq (off : Byte) (s : State) : Host.Outcome State Fault Refusal :=
  .next (branchIf (s.flag .zero) off s)

/-! ## No operation (R207) -/

def execNop (s : State) : Host.Outcome State Fault Refusal :=
  .next (implied id s)

end Sys2Proof.Machine
end

