-- ==== Sys2Proof/Machine/LoadStore.lean ====
section
/-! DEFINITION. Load, store and register-transfer instructions (43_load_store_transfer.md R170 to R183). -/

namespace Sys2Proof.Machine

/-! ## Loads (R171 to R173) -/

/-- `LDA`: load A; Negative and Zero from the loaded byte (43_load_store_transfer.md R171). -/
def ldaBody (m : Byte) (s : State) : State :=
  (s.setA m).setNZ m

def execLdaImm (value : Byte) (s : State) : Host.Outcome State Fault Refusal :=
  .next (immediate ldaBody value s)

def execLdaZp (addr : Byte) (s : State) : Host.Outcome State Fault Refusal :=
  .next (fromMemory ldaBody (.zp addr) s)

def execLdaZpx (addr : Byte) (s : State) : Host.Outcome State Fault Refusal :=
  .next (fromMemory ldaBody (.zpx addr) s)

def execLdaAbs (addr : Word) (s : State) : Host.Outcome State Fault Refusal :=
  .next (fromMemory ldaBody (.abs addr) s)

def execLdaAbsx (addr : Word) (s : State) : Host.Outcome State Fault Refusal :=
  .next (fromMemory ldaBody (.absx addr) s)

def execLdaAbsy (addr : Word) (s : State) : Host.Outcome State Fault Refusal :=
  .next (fromMemory ldaBody (.absy addr) s)

def execLdaIndx (ptr : Byte) (s : State) : Host.Outcome State Fault Refusal :=
  .next (fromMemory ldaBody (.indx ptr) s)

def execLdaIndy (ptr : Byte) (s : State) : Host.Outcome State Fault Refusal :=
  .next (fromMemory ldaBody (.indy ptr) s)

/-- `LDX`: load X; Negative and Zero from the loaded byte (43_load_store_transfer.md R172). -/
def ldxBody (m : Byte) (s : State) : State :=
  (s.setX m).setNZ m

def execLdxImm (value : Byte) (s : State) : Host.Outcome State Fault Refusal :=
  .next (immediate ldxBody value s)

def execLdxZp (addr : Byte) (s : State) : Host.Outcome State Fault Refusal :=
  .next (fromMemory ldxBody (.zp addr) s)

def execLdxZpy (addr : Byte) (s : State) : Host.Outcome State Fault Refusal :=
  .next (fromMemory ldxBody (.zpy addr) s)

def execLdxAbs (addr : Word) (s : State) : Host.Outcome State Fault Refusal :=
  .next (fromMemory ldxBody (.abs addr) s)

def execLdxAbsy (addr : Word) (s : State) : Host.Outcome State Fault Refusal :=
  .next (fromMemory ldxBody (.absy addr) s)

/-- `LDY`: load Y; Negative and Zero from the loaded byte (43_load_store_transfer.md R173). -/
def ldyBody (m : Byte) (s : State) : State :=
  (s.setY m).setNZ m

def execLdyImm (value : Byte) (s : State) : Host.Outcome State Fault Refusal :=
  .next (immediate ldyBody value s)

def execLdyZp (addr : Byte) (s : State) : Host.Outcome State Fault Refusal :=
  .next (fromMemory ldyBody (.zp addr) s)

def execLdyZpx (addr : Byte) (s : State) : Host.Outcome State Fault Refusal :=
  .next (fromMemory ldyBody (.zpx addr) s)

def execLdyAbs (addr : Word) (s : State) : Host.Outcome State Fault Refusal :=
  .next (fromMemory ldyBody (.abs addr) s)

def execLdyAbsx (addr : Word) (s : State) : Host.Outcome State Fault Refusal :=
  .next (fromMemory ldyBody (.absx addr) s)

/-! ## Stores (R174 to R176): no flag is written -/

def execStaZp (addr : Byte) (s : State) : Host.Outcome State Fault Refusal :=
  .next (storeTo s.a (.zp addr) s)

def execStaZpx (addr : Byte) (s : State) : Host.Outcome State Fault Refusal :=
  .next (storeTo s.a (.zpx addr) s)

def execStaAbs (addr : Word) (s : State) : Host.Outcome State Fault Refusal :=
  .next (storeTo s.a (.abs addr) s)

def execStaAbsx (addr : Word) (s : State) : Host.Outcome State Fault Refusal :=
  .next (storeTo s.a (.absx addr) s)

def execStaAbsy (addr : Word) (s : State) : Host.Outcome State Fault Refusal :=
  .next (storeTo s.a (.absy addr) s)

def execStaIndx (ptr : Byte) (s : State) : Host.Outcome State Fault Refusal :=
  .next (storeTo s.a (.indx ptr) s)

def execStaIndy (ptr : Byte) (s : State) : Host.Outcome State Fault Refusal :=
  .next (storeTo s.a (.indy ptr) s)

def execStxZp (addr : Byte) (s : State) : Host.Outcome State Fault Refusal :=
  .next (storeTo s.x (.zp addr) s)

def execStxZpy (addr : Byte) (s : State) : Host.Outcome State Fault Refusal :=
  .next (storeTo s.x (.zpy addr) s)

def execStxAbs (addr : Word) (s : State) : Host.Outcome State Fault Refusal :=
  .next (storeTo s.x (.abs addr) s)

def execStyZp (addr : Byte) (s : State) : Host.Outcome State Fault Refusal :=
  .next (storeTo s.y (.zp addr) s)

def execStyZpx (addr : Byte) (s : State) : Host.Outcome State Fault Refusal :=
  .next (storeTo s.y (.zpx addr) s)

def execStyAbs (addr : Word) (s : State) : Host.Outcome State Fault Refusal :=
  .next (storeTo s.y (.abs addr) s)

/-! ## Transfers (R178 to R183): TSX and TXS write no flag -/

/-- `TAX`: copy A to X; Negative and Zero from it (43_load_store_transfer.md R178). -/
def taxBody (s : State) : State :=
  (s.setX s.a).setNZ s.a

def execTax (s : State) : Host.Outcome State Fault Refusal :=
  .next (implied taxBody s)

/-- `TXA`: copy X to A; Negative and Zero from it (43_load_store_transfer.md R179). -/
def txaBody (s : State) : State :=
  (s.setA s.x).setNZ s.x

def execTxa (s : State) : Host.Outcome State Fault Refusal :=
  .next (implied txaBody s)

/-- `TAY`: copy A to Y; Negative and Zero from it (43_load_store_transfer.md R180). -/
def tayBody (s : State) : State :=
  (s.setY s.a).setNZ s.a

def execTay (s : State) : Host.Outcome State Fault Refusal :=
  .next (implied tayBody s)

/-- `TYA`: copy Y to A; Negative and Zero from it (43_load_store_transfer.md R181). -/
def tyaBody (s : State) : State :=
  (s.setA s.y).setNZ s.y

def execTya (s : State) : Host.Outcome State Fault Refusal :=
  .next (implied tyaBody s)

/-- `TSX`: copy SP to X, no flag (43_load_store_transfer.md R182; assumption 16). -/
def tsxBody (s : State) : State :=
  s.setX s.sp

def execTsx (s : State) : Host.Outcome State Fault Refusal :=
  .next (implied tsxBody s)

/-- `TXS`: copy X to SP, no flag (43_load_store_transfer.md R183). -/
def txsBody (s : State) : State :=
  s.setSp s.x

def execTxs (s : State) : Host.Outcome State Fault Refusal :=
  .next (implied txsBody s)

end Sys2Proof.Machine
end

