-- ==== Sys2Proof/Machine/Logic.lean ====
section
/-! DEFINITION. Logic, add, subtract, compare and bit-test instructions (41_logic_arith.md R130 to R141): one body for each
mnemonic, one meaning for each opcode-table row. -/

namespace Sys2Proof.Machine

/-! ## Logic (R131 to R133) -/

/-- `ORA`: inclusive or into the accumulator; Negative and Zero from the result (41_logic_arith.md R131). -/
def oraBody (m : Byte) (s : State) : State :=
  (s.setA (s.a ||| m)).setNZ (s.a ||| m)

def execOraImm (value : Byte) (s : State) : Host.Outcome State Fault Refusal :=
  .next (immediate oraBody value s)

def execOraZp (addr : Byte) (s : State) : Host.Outcome State Fault Refusal :=
  .next (fromMemory oraBody (.zp addr) s)

def execOraZpx (addr : Byte) (s : State) : Host.Outcome State Fault Refusal :=
  .next (fromMemory oraBody (.zpx addr) s)

def execOraAbs (addr : Word) (s : State) : Host.Outcome State Fault Refusal :=
  .next (fromMemory oraBody (.abs addr) s)

def execOraAbsx (addr : Word) (s : State) : Host.Outcome State Fault Refusal :=
  .next (fromMemory oraBody (.absx addr) s)

def execOraAbsy (addr : Word) (s : State) : Host.Outcome State Fault Refusal :=
  .next (fromMemory oraBody (.absy addr) s)

def execOraIndx (ptr : Byte) (s : State) : Host.Outcome State Fault Refusal :=
  .next (fromMemory oraBody (.indx ptr) s)

def execOraIndy (ptr : Byte) (s : State) : Host.Outcome State Fault Refusal :=
  .next (fromMemory oraBody (.indy ptr) s)

/-- `AND`: bitwise and into the accumulator; Negative and Zero from the result (41_logic_arith.md R132). -/
def andBody (m : Byte) (s : State) : State :=
  (s.setA (s.a &&& m)).setNZ (s.a &&& m)

def execAndImm (value : Byte) (s : State) : Host.Outcome State Fault Refusal :=
  .next (immediate andBody value s)

def execAndZp (addr : Byte) (s : State) : Host.Outcome State Fault Refusal :=
  .next (fromMemory andBody (.zp addr) s)

def execAndZpx (addr : Byte) (s : State) : Host.Outcome State Fault Refusal :=
  .next (fromMemory andBody (.zpx addr) s)

def execAndAbs (addr : Word) (s : State) : Host.Outcome State Fault Refusal :=
  .next (fromMemory andBody (.abs addr) s)

def execAndAbsx (addr : Word) (s : State) : Host.Outcome State Fault Refusal :=
  .next (fromMemory andBody (.absx addr) s)

def execAndAbsy (addr : Word) (s : State) : Host.Outcome State Fault Refusal :=
  .next (fromMemory andBody (.absy addr) s)

def execAndIndx (ptr : Byte) (s : State) : Host.Outcome State Fault Refusal :=
  .next (fromMemory andBody (.indx ptr) s)

def execAndIndy (ptr : Byte) (s : State) : Host.Outcome State Fault Refusal :=
  .next (fromMemory andBody (.indy ptr) s)

/-- `EOR`: exclusive or into the accumulator; Negative and Zero from the result (41_logic_arith.md R133). -/
def eorBody (m : Byte) (s : State) : State :=
  (s.setA (s.a ^^^ m)).setNZ (s.a ^^^ m)

def execEorImm (value : Byte) (s : State) : Host.Outcome State Fault Refusal :=
  .next (immediate eorBody value s)

def execEorZp (addr : Byte) (s : State) : Host.Outcome State Fault Refusal :=
  .next (fromMemory eorBody (.zp addr) s)

def execEorZpx (addr : Byte) (s : State) : Host.Outcome State Fault Refusal :=
  .next (fromMemory eorBody (.zpx addr) s)

def execEorAbs (addr : Word) (s : State) : Host.Outcome State Fault Refusal :=
  .next (fromMemory eorBody (.abs addr) s)

def execEorAbsx (addr : Word) (s : State) : Host.Outcome State Fault Refusal :=
  .next (fromMemory eorBody (.absx addr) s)

def execEorAbsy (addr : Word) (s : State) : Host.Outcome State Fault Refusal :=
  .next (fromMemory eorBody (.absy addr) s)

def execEorIndx (ptr : Byte) (s : State) : Host.Outcome State Fault Refusal :=
  .next (fromMemory eorBody (.indx ptr) s)

def execEorIndy (ptr : Byte) (s : State) : Host.Outcome State Fault Refusal :=
  .next (fromMemory eorBody (.indy ptr) s)

/-! ## Add and subtract with carry (R134 to R136) -/

/-- `ADC` (41_logic_arith.md R134): the accumulator and Carry, Overflow, Negative, Zero. -/
def adcBody (m : Byte) (s : State) : State :=
  let r := addWithCarry s.a m s.p
  (s.setA r.1).setP r.2

def execAdcImm (value : Byte) (s : State) : Host.Outcome State Fault Refusal :=
  .next (immediate adcBody value s)

def execAdcZp (addr : Byte) (s : State) : Host.Outcome State Fault Refusal :=
  .next (fromMemory adcBody (.zp addr) s)

def execAdcZpx (addr : Byte) (s : State) : Host.Outcome State Fault Refusal :=
  .next (fromMemory adcBody (.zpx addr) s)

def execAdcAbs (addr : Word) (s : State) : Host.Outcome State Fault Refusal :=
  .next (fromMemory adcBody (.abs addr) s)

def execAdcAbsx (addr : Word) (s : State) : Host.Outcome State Fault Refusal :=
  .next (fromMemory adcBody (.absx addr) s)

def execAdcAbsy (addr : Word) (s : State) : Host.Outcome State Fault Refusal :=
  .next (fromMemory adcBody (.absy addr) s)

def execAdcIndx (ptr : Byte) (s : State) : Host.Outcome State Fault Refusal :=
  .next (fromMemory adcBody (.indx ptr) s)

def execAdcIndy (ptr : Byte) (s : State) : Host.Outcome State Fault Refusal :=
  .next (fromMemory adcBody (.indy ptr) s)

/-- `SBC` (41_logic_arith.md R135): the accumulator and Carry, Overflow, Negative, Zero. -/
def sbcBody (m : Byte) (s : State) : State :=
  let r := subtractWithCarry s.a m s.p
  (s.setA r.1).setP r.2

def execSbcImm (value : Byte) (s : State) : Host.Outcome State Fault Refusal :=
  .next (immediate sbcBody value s)

def execSbcZp (addr : Byte) (s : State) : Host.Outcome State Fault Refusal :=
  .next (fromMemory sbcBody (.zp addr) s)

def execSbcZpx (addr : Byte) (s : State) : Host.Outcome State Fault Refusal :=
  .next (fromMemory sbcBody (.zpx addr) s)

def execSbcAbs (addr : Word) (s : State) : Host.Outcome State Fault Refusal :=
  .next (fromMemory sbcBody (.abs addr) s)

def execSbcAbsx (addr : Word) (s : State) : Host.Outcome State Fault Refusal :=
  .next (fromMemory sbcBody (.absx addr) s)

def execSbcAbsy (addr : Word) (s : State) : Host.Outcome State Fault Refusal :=
  .next (fromMemory sbcBody (.absy addr) s)

def execSbcIndx (ptr : Byte) (s : State) : Host.Outcome State Fault Refusal :=
  .next (fromMemory sbcBody (.indx ptr) s)

def execSbcIndy (ptr : Byte) (s : State) : Host.Outcome State Fault Refusal :=
  .next (fromMemory sbcBody (.indy ptr) s)

/-! ## Compare (R137 to R139) -/

/-- `CMP`: compare A; only Carry, Negative and Zero are written (41_logic_arith.md R137). -/
def cmpBody (m : Byte) (s : State) : State :=
  s.setP (compareFlags s.a m s.p)

def execCmpImm (value : Byte) (s : State) : Host.Outcome State Fault Refusal :=
  .next (immediate cmpBody value s)

def execCmpZp (addr : Byte) (s : State) : Host.Outcome State Fault Refusal :=
  .next (fromMemory cmpBody (.zp addr) s)

def execCmpZpx (addr : Byte) (s : State) : Host.Outcome State Fault Refusal :=
  .next (fromMemory cmpBody (.zpx addr) s)

def execCmpAbs (addr : Word) (s : State) : Host.Outcome State Fault Refusal :=
  .next (fromMemory cmpBody (.abs addr) s)

def execCmpAbsx (addr : Word) (s : State) : Host.Outcome State Fault Refusal :=
  .next (fromMemory cmpBody (.absx addr) s)

def execCmpAbsy (addr : Word) (s : State) : Host.Outcome State Fault Refusal :=
  .next (fromMemory cmpBody (.absy addr) s)

def execCmpIndx (ptr : Byte) (s : State) : Host.Outcome State Fault Refusal :=
  .next (fromMemory cmpBody (.indx ptr) s)

def execCmpIndy (ptr : Byte) (s : State) : Host.Outcome State Fault Refusal :=
  .next (fromMemory cmpBody (.indy ptr) s)

/-- `CPX`: compare X; only Carry, Negative and Zero are written (41_logic_arith.md R138). -/
def cpxBody (m : Byte) (s : State) : State :=
  s.setP (compareFlags s.x m s.p)

def execCpxImm (value : Byte) (s : State) : Host.Outcome State Fault Refusal :=
  .next (immediate cpxBody value s)

def execCpxZp (addr : Byte) (s : State) : Host.Outcome State Fault Refusal :=
  .next (fromMemory cpxBody (.zp addr) s)

def execCpxAbs (addr : Word) (s : State) : Host.Outcome State Fault Refusal :=
  .next (fromMemory cpxBody (.abs addr) s)

/-- `CPY`: compare Y; only Carry, Negative and Zero are written (41_logic_arith.md R139). -/
def cpyBody (m : Byte) (s : State) : State :=
  s.setP (compareFlags s.y m s.p)

def execCpyImm (value : Byte) (s : State) : Host.Outcome State Fault Refusal :=
  .next (immediate cpyBody value s)

def execCpyZp (addr : Byte) (s : State) : Host.Outcome State Fault Refusal :=
  .next (fromMemory cpyBody (.zp addr) s)

def execCpyAbs (addr : Word) (s : State) : Host.Outcome State Fault Refusal :=
  .next (fromMemory cpyBody (.abs addr) s)

/-! ## Bit test (R140) -/

/-- `BIT`: only Zero, Negative and Overflow are written (41_logic_arith.md R140). -/
def bitBody (m : Byte) (s : State) : State :=
  s.setP (bitTestFlags s.a m s.p)

def execBitZp (addr : Byte) (s : State) : Host.Outcome State Fault Refusal :=
  .next (fromMemory bitBody (.zp addr) s)

def execBitAbs (addr : Word) (s : State) : Host.Outcome State Fault Refusal :=
  .next (fromMemory bitBody (.abs addr) s)

end Sys2Proof.Machine
end

