-- ==== Sys2Proof/Machine/Shift.lean ====
section
/-! DEFINITION. Shift, rotate, increment and decrement instructions (42_shift_incdec.md R150 to R160): one meaning for each
opcode-table row over the computations of Flags.lean. -/

namespace Sys2Proof.Machine

/-! ## Shifts and rotates (R151 to R154) -/

def execAslAcc (s : State) : Host.Outcome State Fault Refusal :=
  .next (modifyAcc shiftLeft s)

def execAslZp (addr : Byte) (s : State) : Host.Outcome State Fault Refusal :=
  .next (modifyMemory shiftLeft (.zp addr) s)

def execAslZpx (addr : Byte) (s : State) : Host.Outcome State Fault Refusal :=
  .next (modifyMemory shiftLeft (.zpx addr) s)

def execAslAbs (addr : Word) (s : State) : Host.Outcome State Fault Refusal :=
  .next (modifyMemory shiftLeft (.abs addr) s)

def execAslAbsx (addr : Word) (s : State) : Host.Outcome State Fault Refusal :=
  .next (modifyMemory shiftLeft (.absx addr) s)

def execLsrAcc (s : State) : Host.Outcome State Fault Refusal :=
  .next (modifyAcc shiftRight s)

def execLsrZp (addr : Byte) (s : State) : Host.Outcome State Fault Refusal :=
  .next (modifyMemory shiftRight (.zp addr) s)

def execLsrZpx (addr : Byte) (s : State) : Host.Outcome State Fault Refusal :=
  .next (modifyMemory shiftRight (.zpx addr) s)

def execLsrAbs (addr : Word) (s : State) : Host.Outcome State Fault Refusal :=
  .next (modifyMemory shiftRight (.abs addr) s)

def execLsrAbsx (addr : Word) (s : State) : Host.Outcome State Fault Refusal :=
  .next (modifyMemory shiftRight (.absx addr) s)

def execRolAcc (s : State) : Host.Outcome State Fault Refusal :=
  .next (modifyAcc rotateLeft s)

def execRolZp (addr : Byte) (s : State) : Host.Outcome State Fault Refusal :=
  .next (modifyMemory rotateLeft (.zp addr) s)

def execRolZpx (addr : Byte) (s : State) : Host.Outcome State Fault Refusal :=
  .next (modifyMemory rotateLeft (.zpx addr) s)

def execRolAbs (addr : Word) (s : State) : Host.Outcome State Fault Refusal :=
  .next (modifyMemory rotateLeft (.abs addr) s)

def execRolAbsx (addr : Word) (s : State) : Host.Outcome State Fault Refusal :=
  .next (modifyMemory rotateLeft (.absx addr) s)

def execRorAcc (s : State) : Host.Outcome State Fault Refusal :=
  .next (modifyAcc rotateRight s)

def execRorZp (addr : Byte) (s : State) : Host.Outcome State Fault Refusal :=
  .next (modifyMemory rotateRight (.zp addr) s)

def execRorZpx (addr : Byte) (s : State) : Host.Outcome State Fault Refusal :=
  .next (modifyMemory rotateRight (.zpx addr) s)

def execRorAbs (addr : Word) (s : State) : Host.Outcome State Fault Refusal :=
  .next (modifyMemory rotateRight (.abs addr) s)

def execRorAbsx (addr : Word) (s : State) : Host.Outcome State Fault Refusal :=
  .next (modifyMemory rotateRight (.absx addr) s)

/-! ## Increment and decrement of memory (R155, R156) -/

def execIncZp (addr : Byte) (s : State) : Host.Outcome State Fault Refusal :=
  .next (modifyMemory increment (.zp addr) s)

def execIncZpx (addr : Byte) (s : State) : Host.Outcome State Fault Refusal :=
  .next (modifyMemory increment (.zpx addr) s)

def execIncAbs (addr : Word) (s : State) : Host.Outcome State Fault Refusal :=
  .next (modifyMemory increment (.abs addr) s)

def execIncAbsx (addr : Word) (s : State) : Host.Outcome State Fault Refusal :=
  .next (modifyMemory increment (.absx addr) s)

def execDecZp (addr : Byte) (s : State) : Host.Outcome State Fault Refusal :=
  .next (modifyMemory decrement (.zp addr) s)

def execDecZpx (addr : Byte) (s : State) : Host.Outcome State Fault Refusal :=
  .next (modifyMemory decrement (.zpx addr) s)

def execDecAbs (addr : Word) (s : State) : Host.Outcome State Fault Refusal :=
  .next (modifyMemory decrement (.abs addr) s)

def execDecAbsx (addr : Word) (s : State) : Host.Outcome State Fault Refusal :=
  .next (modifyMemory decrement (.absx addr) s)

/-! ## Increment and decrement of an index register (R157 to R160) -/

/-- `INX` (42_shift_incdec.md R157). -/
def inxBody (s : State) : State :=
  (s.setX (s.x + 1)).setNZ (s.x + 1)

def execInx (s : State) : Host.Outcome State Fault Refusal :=
  .next (implied inxBody s)

/-- `INY` (42_shift_incdec.md R158). -/
def inyBody (s : State) : State :=
  (s.setY (s.y + 1)).setNZ (s.y + 1)

def execIny (s : State) : Host.Outcome State Fault Refusal :=
  .next (implied inyBody s)

/-- `DEX` (42_shift_incdec.md R159). -/
def dexBody (s : State) : State :=
  (s.setX (s.x - 1)).setNZ (s.x - 1)

def execDex (s : State) : Host.Outcome State Fault Refusal :=
  .next (implied dexBody s)

/-- `DEY` (42_shift_incdec.md R160). -/
def deyBody (s : State) : State :=
  (s.setY (s.y - 1)).setNZ (s.y - 1)

def execDey (s : State) : Host.Outcome State Fault Refusal :=
  .next (implied deyBody s)

end Sys2Proof.Machine
end

