-- ==== Sys2Proof/Machine/Stack.lean ====
section
/-! DEFINITION. Stack, subroutine, jump and interrupt-control instructions (45_stack_control.md R215 to R226). -/

namespace Sys2Proof.Machine

/-! ## Push and pull (R217 to R220) -/

/-- `PHA` (45_stack_control.md R217). -/
def execPha (s : State) : Host.Outcome State Fault Refusal :=
  .next (implied (fun s => s.push s.a) s)

/-- `PLA`: Negative and Zero from the pulled byte (45_stack_control.md R218). -/
def plaBody (s : State) : State :=
  let v := s.pull
  (v.2.setA v.1).setNZ v.1

def execPla (s : State) : Host.Outcome State Fault Refusal :=
  .next (implied plaBody s)

/-- `PHP`: all eight bits as stored (45_stack_control.md R219; assumption 15). -/
def execPhp (s : State) : Host.Outcome State Fault Refusal :=
  .next (implied (fun s => s.push s.p) s)

/-- `PLP`: all eight bits are replaced (45_stack_control.md R220; assumption 15). -/
def plpBody (s : State) : State :=
  let v := s.pull
  v.2.setP v.1

def execPlp (s : State) : Host.Outcome State Fault Refusal :=
  .next (implied plpBody s)

/-! ## Subroutine call and return (R221, R222) -/

/-- `JSR`: push the address of its own last byte, high byte first, then jump (45_stack_control.md R221). -/
def execJsr (addr : Word) (s : State) : Host.Outcome State Fault Refusal :=
  .next ((s.pushWord (s.pc + 2)).setPc addr)

/-- `RTS`: pull a word, low byte first, and add one (45_stack_control.md R222). -/
def returnFromSubroutine (s : State) : State :=
  let target := s.pullWord
  target.2.setPc (target.1 + 1)

def execRts (s : State) : Host.Outcome State Fault Refusal :=
  .next (returnFromSubroutine s)

/-! ## Jumps (R223) -/

/-- `JMP` absolute: the resolved address itself (45_stack_control.md R223). -/
def execJmpAbs (addr : Word) (s : State) : Host.Outcome State Fault Refusal :=
  .next (s.setPc addr)

/-- The jump through a pointer (45_stack_control.md R223, 40_addressing.md R123). -/
def jumpIndirect (ptr : Word) (s : State) : State :=
  let target := s.indirectTarget ptr
  target.2.setPc target.1

def execJmpInd (ptr : Word) (s : State) : Host.Outcome State Fault Refusal :=
  .next (jumpIndirect ptr s)

/-! ## Break and return from interrupt (R224, R225) -/

/-- `BRK` takes the trap (45_stack_control.md R224). -/
def execBrk (s : State) : Host.Outcome State Fault Refusal :=
  .next (s.enterBreak)

/-- `RTI` returns from it (45_stack_control.md R225). -/
def execRti (s : State) : Host.Outcome State Fault Refusal :=
  .next (s.returnFromBreak)

end Sys2Proof.Machine
end

