-- ==== Sys2Proof/Machine/Dispatch.lean ====
section
/-! DEFINITION. The dispatch: one direct call of a meaning for each constructor of `Instr` (30_encoding.md R98). -/

namespace Sys2Proof.Machine

def exec (i : Instr) (s : State) : Host.Outcome State Fault Refusal :=
  match i with
  | .oraImm value => Sys2Proof.Machine.execOraImm value s
  | .oraZp addr => Sys2Proof.Machine.execOraZp addr s
  | .oraZpx addr => Sys2Proof.Machine.execOraZpx addr s
  | .oraAbs addr => Sys2Proof.Machine.execOraAbs addr s
  | .oraAbsx addr => Sys2Proof.Machine.execOraAbsx addr s
  | .oraAbsy addr => Sys2Proof.Machine.execOraAbsy addr s
  | .oraIndx ptr => Sys2Proof.Machine.execOraIndx ptr s
  | .oraIndy ptr => Sys2Proof.Machine.execOraIndy ptr s
  | .andImm value => Sys2Proof.Machine.execAndImm value s
  | .andZp addr => Sys2Proof.Machine.execAndZp addr s
  | .andZpx addr => Sys2Proof.Machine.execAndZpx addr s
  | .andAbs addr => Sys2Proof.Machine.execAndAbs addr s
  | .andAbsx addr => Sys2Proof.Machine.execAndAbsx addr s
  | .andAbsy addr => Sys2Proof.Machine.execAndAbsy addr s
  | .andIndx ptr => Sys2Proof.Machine.execAndIndx ptr s
  | .andIndy ptr => Sys2Proof.Machine.execAndIndy ptr s
  | .eorImm value => Sys2Proof.Machine.execEorImm value s
  | .eorZp addr => Sys2Proof.Machine.execEorZp addr s
  | .eorZpx addr => Sys2Proof.Machine.execEorZpx addr s
  | .eorAbs addr => Sys2Proof.Machine.execEorAbs addr s
  | .eorAbsx addr => Sys2Proof.Machine.execEorAbsx addr s
  | .eorAbsy addr => Sys2Proof.Machine.execEorAbsy addr s
  | .eorIndx ptr => Sys2Proof.Machine.execEorIndx ptr s
  | .eorIndy ptr => Sys2Proof.Machine.execEorIndy ptr s
  | .adcImm value => Sys2Proof.Machine.execAdcImm value s
  | .adcZp addr => Sys2Proof.Machine.execAdcZp addr s
  | .adcZpx addr => Sys2Proof.Machine.execAdcZpx addr s
  | .adcAbs addr => Sys2Proof.Machine.execAdcAbs addr s
  | .adcAbsx addr => Sys2Proof.Machine.execAdcAbsx addr s
  | .adcAbsy addr => Sys2Proof.Machine.execAdcAbsy addr s
  | .adcIndx ptr => Sys2Proof.Machine.execAdcIndx ptr s
  | .adcIndy ptr => Sys2Proof.Machine.execAdcIndy ptr s
  | .sbcImm value => Sys2Proof.Machine.execSbcImm value s
  | .sbcZp addr => Sys2Proof.Machine.execSbcZp addr s
  | .sbcZpx addr => Sys2Proof.Machine.execSbcZpx addr s
  | .sbcAbs addr => Sys2Proof.Machine.execSbcAbs addr s
  | .sbcAbsx addr => Sys2Proof.Machine.execSbcAbsx addr s
  | .sbcAbsy addr => Sys2Proof.Machine.execSbcAbsy addr s
  | .sbcIndx ptr => Sys2Proof.Machine.execSbcIndx ptr s
  | .sbcIndy ptr => Sys2Proof.Machine.execSbcIndy ptr s
  | .cmpImm value => Sys2Proof.Machine.execCmpImm value s
  | .cmpZp addr => Sys2Proof.Machine.execCmpZp addr s
  | .cmpZpx addr => Sys2Proof.Machine.execCmpZpx addr s
  | .cmpAbs addr => Sys2Proof.Machine.execCmpAbs addr s
  | .cmpAbsx addr => Sys2Proof.Machine.execCmpAbsx addr s
  | .cmpAbsy addr => Sys2Proof.Machine.execCmpAbsy addr s
  | .cmpIndx ptr => Sys2Proof.Machine.execCmpIndx ptr s
  | .cmpIndy ptr => Sys2Proof.Machine.execCmpIndy ptr s
  | .cpxImm value => Sys2Proof.Machine.execCpxImm value s
  | .cpxZp addr => Sys2Proof.Machine.execCpxZp addr s
  | .cpxAbs addr => Sys2Proof.Machine.execCpxAbs addr s
  | .cpyImm value => Sys2Proof.Machine.execCpyImm value s
  | .cpyZp addr => Sys2Proof.Machine.execCpyZp addr s
  | .cpyAbs addr => Sys2Proof.Machine.execCpyAbs addr s
  | .bitZp addr => Sys2Proof.Machine.execBitZp addr s
  | .bitAbs addr => Sys2Proof.Machine.execBitAbs addr s
  | .aslAcc => Sys2Proof.Machine.execAslAcc s
  | .aslZp addr => Sys2Proof.Machine.execAslZp addr s
  | .aslZpx addr => Sys2Proof.Machine.execAslZpx addr s
  | .aslAbs addr => Sys2Proof.Machine.execAslAbs addr s
  | .aslAbsx addr => Sys2Proof.Machine.execAslAbsx addr s
  | .lsrAcc => Sys2Proof.Machine.execLsrAcc s
  | .lsrZp addr => Sys2Proof.Machine.execLsrZp addr s
  | .lsrZpx addr => Sys2Proof.Machine.execLsrZpx addr s
  | .lsrAbs addr => Sys2Proof.Machine.execLsrAbs addr s
  | .lsrAbsx addr => Sys2Proof.Machine.execLsrAbsx addr s
  | .rolAcc => Sys2Proof.Machine.execRolAcc s
  | .rolZp addr => Sys2Proof.Machine.execRolZp addr s
  | .rolZpx addr => Sys2Proof.Machine.execRolZpx addr s
  | .rolAbs addr => Sys2Proof.Machine.execRolAbs addr s
  | .rolAbsx addr => Sys2Proof.Machine.execRolAbsx addr s
  | .rorAcc => Sys2Proof.Machine.execRorAcc s
  | .rorZp addr => Sys2Proof.Machine.execRorZp addr s
  | .rorZpx addr => Sys2Proof.Machine.execRorZpx addr s
  | .rorAbs addr => Sys2Proof.Machine.execRorAbs addr s
  | .rorAbsx addr => Sys2Proof.Machine.execRorAbsx addr s
  | .incZp addr => Sys2Proof.Machine.execIncZp addr s
  | .incZpx addr => Sys2Proof.Machine.execIncZpx addr s
  | .incAbs addr => Sys2Proof.Machine.execIncAbs addr s
  | .incAbsx addr => Sys2Proof.Machine.execIncAbsx addr s
  | .decZp addr => Sys2Proof.Machine.execDecZp addr s
  | .decZpx addr => Sys2Proof.Machine.execDecZpx addr s
  | .decAbs addr => Sys2Proof.Machine.execDecAbs addr s
  | .decAbsx addr => Sys2Proof.Machine.execDecAbsx addr s
  | .inx => Sys2Proof.Machine.execInx s
  | .iny => Sys2Proof.Machine.execIny s
  | .dex => Sys2Proof.Machine.execDex s
  | .dey => Sys2Proof.Machine.execDey s
  | .ldaImm value => Sys2Proof.Machine.execLdaImm value s
  | .ldaZp addr => Sys2Proof.Machine.execLdaZp addr s
  | .ldaZpx addr => Sys2Proof.Machine.execLdaZpx addr s
  | .ldaAbs addr => Sys2Proof.Machine.execLdaAbs addr s
  | .ldaAbsx addr => Sys2Proof.Machine.execLdaAbsx addr s
  | .ldaAbsy addr => Sys2Proof.Machine.execLdaAbsy addr s
  | .ldaIndx ptr => Sys2Proof.Machine.execLdaIndx ptr s
  | .ldaIndy ptr => Sys2Proof.Machine.execLdaIndy ptr s
  | .ldxImm value => Sys2Proof.Machine.execLdxImm value s
  | .ldxZp addr => Sys2Proof.Machine.execLdxZp addr s
  | .ldxZpy addr => Sys2Proof.Machine.execLdxZpy addr s
  | .ldxAbs addr => Sys2Proof.Machine.execLdxAbs addr s
  | .ldxAbsy addr => Sys2Proof.Machine.execLdxAbsy addr s
  | .ldyImm value => Sys2Proof.Machine.execLdyImm value s
  | .ldyZp addr => Sys2Proof.Machine.execLdyZp addr s
  | .ldyZpx addr => Sys2Proof.Machine.execLdyZpx addr s
  | .ldyAbs addr => Sys2Proof.Machine.execLdyAbs addr s
  | .ldyAbsx addr => Sys2Proof.Machine.execLdyAbsx addr s
  | .staZp addr => Sys2Proof.Machine.execStaZp addr s
  | .staZpx addr => Sys2Proof.Machine.execStaZpx addr s
  | .staAbs addr => Sys2Proof.Machine.execStaAbs addr s
  | .staAbsx addr => Sys2Proof.Machine.execStaAbsx addr s
  | .staAbsy addr => Sys2Proof.Machine.execStaAbsy addr s
  | .staIndx ptr => Sys2Proof.Machine.execStaIndx ptr s
  | .staIndy ptr => Sys2Proof.Machine.execStaIndy ptr s
  | .stxZp addr => Sys2Proof.Machine.execStxZp addr s
  | .stxZpy addr => Sys2Proof.Machine.execStxZpy addr s
  | .stxAbs addr => Sys2Proof.Machine.execStxAbs addr s
  | .styZp addr => Sys2Proof.Machine.execStyZp addr s
  | .styZpx addr => Sys2Proof.Machine.execStyZpx addr s
  | .styAbs addr => Sys2Proof.Machine.execStyAbs addr s
  | .tax => Sys2Proof.Machine.execTax s
  | .txa => Sys2Proof.Machine.execTxa s
  | .tay => Sys2Proof.Machine.execTay s
  | .tya => Sys2Proof.Machine.execTya s
  | .tsx => Sys2Proof.Machine.execTsx s
  | .txs => Sys2Proof.Machine.execTxs s
  | .clc => Sys2Proof.Machine.execClc s
  | .sec => Sys2Proof.Machine.execSec s
  | .cli => Sys2Proof.Machine.execCli s
  | .sei => Sys2Proof.Machine.execSei s
  | .cld => Sys2Proof.Machine.execCld s
  | .sed => Sys2Proof.Machine.execSed s
  | .clv => Sys2Proof.Machine.execClv s
  | .bpl off => Sys2Proof.Machine.execBpl off s
  | .bmi off => Sys2Proof.Machine.execBmi off s
  | .bvc off => Sys2Proof.Machine.execBvc off s
  | .bvs off => Sys2Proof.Machine.execBvs off s
  | .bcc off => Sys2Proof.Machine.execBcc off s
  | .bcs off => Sys2Proof.Machine.execBcs off s
  | .bne off => Sys2Proof.Machine.execBne off s
  | .beq off => Sys2Proof.Machine.execBeq off s
  | .nop => Sys2Proof.Machine.execNop s
  | .pha => Sys2Proof.Machine.execPha s
  | .pla => Sys2Proof.Machine.execPla s
  | .php => Sys2Proof.Machine.execPhp s
  | .plp => Sys2Proof.Machine.execPlp s
  | .jsr addr => Sys2Proof.Machine.execJsr addr s
  | .rts => Sys2Proof.Machine.execRts s
  | .jmpAbs addr => Sys2Proof.Machine.execJmpAbs addr s
  | .jmpInd ptr => Sys2Proof.Machine.execJmpInd ptr s
  | .brk => Sys2Proof.Machine.execBrk s
  | .rti => Sys2Proof.Machine.execRti s

end Sys2Proof.Machine
end

