-- ==== Sys2Proof/Machine/Fetch.lean ====
section
/-! DEFINITION. Fetching an instruction (20_memory.md R63, 30_encoding.md R93, 70_reset_and_hazards.md R273): the opcode
byte at PC, then, if the table populates it, as many operand bytes as its mode has, each read exactly once through the
banked bus. And placing bytes where the fetch will read them. -/

namespace Sys2Proof.Machine

/-- `n` bus reads at consecutive addresses mod 65536, in order. -/
def State.readBytes : Nat → Word → State → List Byte × State
  | 0, _, s => ([], s)
  | n + 1, addr, s =>
    let b := s.busRead addr
    let rest := State.readBytes n (addr + 1) b.2
    (b.1 :: rest.1, rest.2)

/-- What the fetch of a step finds, with the state after its bus reads. -/
inductive Fetched where
  /-- the opcode is unpopulated: nothing further is read (60_exceptions.md R240) -/
  | illegal (opcode : Byte) (s : State)
  /-- the bytes of an instruction, opcode first -/
  | bytes (code : List Byte) (s : State)
  deriving DecidableEq, Repr

/-- Fetch the bytes at PC. The table tells the length from the opcode byte (30_encoding.md R93). -/
def State.fetch (s : State) : Fetched :=
  let op := s.busRead s.pc
  match instrLength s.params.optable op.1 with
  | none => .illegal op.1 op.2
  | some n =>
    let operand := State.readBytes (n - 1) (s.pc + 1) op.2
    .bytes (op.1 :: operand.1) operand.2

/-- Put a byte where a bus read of an address finds it under the present bank selection: in RAM, in the ROM image behind
the window, or as the next answer of the environment. -/
def State.placeByte (addr : Word) (v : Byte) (s : State) : State :=
  match s.bank addr with
  | .ram => s.poke addr v
  | .basic => s.setParams { s.params with basic := s.params.basic.write (addr.toNat - 0xA000) v }
  | .chargen => s.setParams { s.params with chargen := s.params.chargen.write (addr.toNat - 0xD000) v }
  | .kernal => s.setParams { s.params with kernal := s.params.kernal.write (addr.toNat - 0xE000) v }
  | .io => s.setIoIn (v :: s.ioIn)

/-- Store a byte in RAM if its address is the processor port's: the port selects what every other byte is read from. -/
def State.placePort (addr : Word) (v : Byte) (s : State) : State :=
  if addr = s.params.portAddr then s.poke addr v else s

/-- Place three bytes at PC, PC + 1 and PC + 2 so that the next fetch reads them, the port byte first if it is among them
and the answers of the environment in reading order. -/
def State.placeCode (b0 b1 b2 : Byte) (s : State) : State :=
  let pc := s.pc
  let s1 := ((s.placePort pc b0).placePort (pc + 1) b1).placePort (pc + 2) b2
  ((s1.placeByte (pc + 2) b2).placeByte (pc + 1) b1).placeByte pc b0

end Sys2Proof.Machine
end

