-- ==== Sys2Proof/Machine/Step.lean ====
section
/-! DEFINITION. `step()`: fetch the opcode at PC, decode, execute exactly one instruction (70_reset_and_hazards.md R273). -/

namespace Sys2Proof.Machine

/-- One step. A halted machine changes nothing and reports again (60_exceptions.md R253). An unpopulated opcode halts the
engine (R240). Otherwise the fetched bytes are decoded with the machine's table and the instruction runs in the state after
the fetch's bus reads, PC still at the opcode. -/
def step (s : State) : Host.Outcome State Fault Refusal :=
  match s.run with
  | .halted pc opcode => .fault (.illegalOpcode pc opcode)
  | .running =>
    match s.fetch with
    | .illegal opcode t => .next (t.raiseIllegal opcode)
    | .bytes code t =>
      match decodeWith s.params.optable code with
      | .ok (i, _) => exec i t
      | .error _ => .refused (.modeNotBound (code.headD 0))

/-- The state with the instruction of an opcode-table word placed where `step` fetches its next instruction, and the engine
running (assumption 22). -/
def State.withFetchWord (s : State) (nbits w : Nat) : State :=
  let code := tableWordBytes nbits w
  (s.placeCode (code.getD 0 0) (code.getD 1 0) (code.getD 2 0)).setRun .running

end Sys2Proof.Machine
end

