-- ==== Sys2Proof/WellFormed.lean ====
section
/-! DEFINITION. Well-formedness. The syntax leaves no ill-formed operand (every operand byte is legal, 60_exceptions.md
R240), so an instruction is well-formed RELATIVE TO A TABLE: the table populates it. A table is well-formed when no
opcode stands in it twice and every (mnemonic, mode) pair is one 30_encoding.md R96 binds. -/

namespace Sys2Proof

/-- The table populates the instruction: it has a row for its mnemonic in its mode (30_encoding.md R97, R98). -/
def Instr.wellFormedIn (table : List Row) (i : Instr) : Bool :=
  (rowFor table i.mnemonic i.mode).isSome

/-- Well-formed under the default table (30_encoding.md R96). -/
def Instr.wellFormed (i : Instr) : Bool :=
  i.wellFormedIn optable

/-- An operand of each mode, all bytes zero: it stands for the mode where the bytes do not matter. -/
def Mode.zeroOperand : Mode → Operand
  | .imp => .imp
  | .acc => .acc
  | .imm => .imm 0
  | .zp => .mem (.zp 0)
  | .zpx => .mem (.zpx 0)
  | .zpy => .mem (.zpy 0)
  | .abs => .mem (.abs 0)
  | .absx => .mem (.absx 0)
  | .absy => .mem (.absy 0)
  | .indx => .mem (.indx 0)
  | .indy => .mem (.indy 0)
  | .rel => .rel 0
  | .ind => .ind 0

/-- The entry's mnemonic has a handler in its mode: the pair makes an instruction (30_encoding.md R99). -/
def Row.bound (row : Row) : Bool :=
  (Instr.ofParts row.mnemonic row.mode.zeroOperand).isSome

/-- No opcode value stands in a table twice ("No opcode value is populated twice", 30_encoding.md R96). Two opcodes may bind
the same mnemonic in the same mode: OPTABLE is `OPEN` (00_scope.md R6). -/
def opcodesDistinct : List Row → Bool
  | [] => true
  | row :: rest => rest.all (fun other => row.opcode != other.opcode) && opcodesDistinct rest

/-- No (mnemonic, mode) pair stands in a table twice. A table need not be so; where it is, each instruction has one encoding
and no other. -/
def pairsDistinct : List Row → Bool
  | [] => true
  | row :: rest =>
    rest.all (fun other => !(row.mnemonic == other.mnemonic && row.mode == other.mode)) && pairsDistinct rest

/-- A legal OPTABLE: every entry bound (30_encoding.md R99), no opcode value populated twice (R96). -/
def tableWellFormed (table : List Row) : Bool :=
  table.all Row.bound && opcodesDistinct table

end Sys2Proof
end

