-- ==== Sys2Proof/Machine/HostOps.lean ====
section
/-! DEFINITION. The host operations around `step` (00_scope.md R7): construction, `reset()`, `run`, `loadProgram`, `peek` and
`poke`, register and flag access, `disassemble`. Each is a function between steps; no instruction uses one. -/

namespace Sys2Proof.Machine

/-! ## Construction and reset (70_reset_and_hazards.md R270, R271; 10_state.md R35) -/

/-- RESET_VECTOR (00_scope.md R6). -/
def resetVector : Word :=
  0xFFFC

/-- `reset()`: PC from the word at 0xFFFC through the banked bus, RUN Running, nothing else
(70_reset_and_hazards.md R271; assumption 20). -/
def State.hostReset (s : State) : State :=
  let target := s.readWord resetVector
  (target.2.setPc target.1).setRun .running

/-- What a machine is constructed from: the ROM buffers, each possibly missing, the parameters and the INIT_* values
(70_reset_and_hazards.md R270, 00_scope.md R6). RAM is given by the cells that differ from zero, in any order. -/
structure Init where
  kernal    : Option (List Byte)
  basic     : Option (List Byte)
  chargen   : Option (List Byte)
  portAddr  : Word
  brkVector : Word
  optable   : List Row
  a         : Byte
  x         : Byte
  y         : Byte
  sp        : Byte
  p         : Byte
  ram       : List (Word × Byte)
  deriving DecidableEq, Repr

/-- Why construction fails: no machine exists (70_reset_and_hazards.md R270; 93_implementation_defined.md U17, U18). -/
inductive ConstructError where
  | romMissing
  | romSize
  | portAddr
  | optable
  deriving DecidableEq, Repr

/-- A legal PORT_ADDR lies outside the three windows (10_state.md R33, 93_implementation_defined.md U18). -/
def legalPortAddr (addr : Word) : Bool :=
  !(decide (0xA000 ≤ addr ∧ addr ≤ 0xBFFF) || decide (0xD000 ≤ addr))

/-- A ROM buffer as an image, if it is there and has its size. -/
def romImage (size : Nat) : Option (List Byte) → Except ConstructError Memory
  | none => .error .romMissing
  | some bytes => if bytes.length = size then .ok (Memory.ofBytes 0 bytes) else .error .romSize

/-- The state the parameters give before PC is loaded: P with bit 5 set, RUN Running (10_state.md R35). -/
def Init.state (init : Init) (kernal basic chargen : Memory) : State where
  a       := init.a
  x       := init.x
  y       := init.y
  sp      := init.sp
  pc      := 0
  p       := setFlag .unused true init.p
  ram     := Memory.ofCells init.ram
  run     := .running
  params  := ⟨init.portAddr, init.brkVector, init.optable, kernal, basic, chargen⟩
  ioIn    := []
  ioDraws := 0
  ioLog   := []

/-- Construction: the buffers are checked, then the state is made and PC loaded as `reset()` loads it
(70_reset_and_hazards.md R270). -/
def construct (init : Init) : Except ConstructError State :=
  match romImage romSize init.kernal, romImage romSize init.basic, romImage chargenSize init.chargen with
  | .ok kernal, .ok basic, .ok chargen =>
    if !legalPortAddr init.portAddr then .error .portAddr
    else if !tableWellFormed init.optable then .error .optable
    else .ok (init.state kernal basic chargen).hostReset
  | .error e, _, _ => .error e
  | _, .error e, _ => .error e
  | _, _, .error e => .error e

/-! ## `run` (70_reset_and_hazards.md R274, R275) -/

/-- Why a run ends (70_reset_and_hazards.md R275): the budget, the escape request, the illegal opcode; and the model's own
refusal of an entry without a rule (assumption 13). -/
inductive RunStop where
  | budget
  | escape
  | illegal (pc : Word) (opcode : Byte)
  | refused (reason : Refusal)
  deriving DecidableEq, Repr

/-- The result of a run: the steps done, the state, and why it ended. -/
structure RunResult where
  count : Nat
  state : State
  stop  : RunStop
  deriving DecidableEq, Repr

/-- Step while RUN is Running, the budget lasts and no escape is requested. `escape k` is the poll before the step that
follows `k` steps: an environment input (70_reset_and_hazards.md R274). -/
def runLoop (escape : Nat → Bool) : Nat → Nat → State → RunResult
  | budget, count, s =>
    match s.run with
    | .halted pc opcode => ⟨count, s, .illegal pc opcode⟩
    | .running =>
      match budget with
      | 0 => ⟨count, s, .budget⟩
      | budget + 1 =>
        if escape count then ⟨count, s, .escape⟩
        else
          match step s with
          | .next t => runLoop escape budget (count + 1) t
          | .fault (.illegalOpcode pc opcode) => ⟨count, s, .illegal pc opcode⟩
          | .refused r => ⟨count, s, .refused r⟩

/-- `run(startAddress)` with the step budget `n`. A halted machine reports at once and PC is not changed. -/
def State.hostRun (s : State) (start : Word) (n : Nat) (escape : Nat → Bool) : RunResult :=
  match s.run with
  | .halted pc opcode => ⟨0, s, .illegal pc opcode⟩
  | .running => runLoop escape n 0 (s.setPc start)

/-! ## `loadProgram` (70_reset_and_hazards.md R276) -/

/-- Why `loadProgram` refuses; nothing is written. -/
inductive LoadError where
  | malformedProgram
  | loadOverflow
  deriving DecidableEq, Repr

/-- Poke bytes at consecutive addresses mod 65536 (20_memory.md R70). -/
def State.pokeBytes : Word → List Byte → State → State
  | _, [], s => s
  | addr, b :: bytes, s => State.pokeBytes (addr + 1) bytes (s.poke addr b)

/-- `loadProgram(bytes)`: a little-endian load address, then the payload, copied to the RAM array directly. -/
def State.loadProgram (s : State) : List Byte → Except LoadError State
  | low :: high :: payload =>
    let base := operandWord low high
    if 65536 < base.toNat + payload.length then .error .loadOverflow
    else .ok (s.pokeBytes base payload)
  | _ => .error .malformedProgram

/-! ## Debug access (10_state.md R29, 60_exceptions.md R251); `peek` and `poke` of one byte are in Ops.lean -/

/-- The byte registers the host can get and set. -/
inductive ByteReg where
  | a | x | y | sp | p
  deriving DecidableEq, Repr

/-- Get a byte register. -/
def State.getReg (s : State) : ByteReg → Byte
  | .a => s.a
  | .x => s.x
  | .y => s.y
  | .sp => s.sp
  | .p => s.p

/-- Set a byte register and nothing else. PC is set by `State.setPc`, one flag by `State.setFlag`. -/
def State.setReg (r : ByteReg) (v : Byte) (s : State) : State :=
  match r with
  | .a => s.setA v
  | .x => s.setX v
  | .y => s.setY v
  | .sp => s.setSp v
  | .p => s.setP v

/-! ## `disassemble` (60_exceptions.md R251, 30_encoding.md R101; assumption 21) -/

/-- The text of a mnemonic. -/
def mnemonicText : Mnemonic → String
  | .ora => "ORA"
  | .and => "AND"
  | .eor => "EOR"
  | .adc => "ADC"
  | .sbc => "SBC"
  | .cmp => "CMP"
  | .cpx => "CPX"
  | .cpy => "CPY"
  | .bit => "BIT"
  | .asl => "ASL"
  | .lsr => "LSR"
  | .rol => "ROL"
  | .ror => "ROR"
  | .inc => "INC"
  | .dec => "DEC"
  | .inx => "INX"
  | .iny => "INY"
  | .dex => "DEX"
  | .dey => "DEY"
  | .lda => "LDA"
  | .ldx => "LDX"
  | .ldy => "LDY"
  | .sta => "STA"
  | .stx => "STX"
  | .sty => "STY"
  | .tax => "TAX"
  | .txa => "TXA"
  | .tay => "TAY"
  | .tya => "TYA"
  | .tsx => "TSX"
  | .txs => "TXS"
  | .clc => "CLC"
  | .sec => "SEC"
  | .cli => "CLI"
  | .sei => "SEI"
  | .cld => "CLD"
  | .sed => "SED"
  | .clv => "CLV"
  | .bpl => "BPL"
  | .bmi => "BMI"
  | .bvc => "BVC"
  | .bvs => "BVS"
  | .bcc => "BCC"
  | .bcs => "BCS"
  | .bne => "BNE"
  | .beq => "BEQ"
  | .nop => "NOP"
  | .pha => "PHA"
  | .pla => "PLA"
  | .php => "PHP"
  | .plp => "PLP"
  | .jsr => "JSR"
  | .rts => "RTS"
  | .jmp => "JMP"
  | .brk => "BRK"
  | .rti => "RTI"

/-- One hexadecimal digit. -/
def hexDigit (n : Nat) : String :=
  String.singleton ("0123456789ABCDEF".toList.getD n '0')

/-- Two hexadecimal digits. -/
def hexByte (b : Byte) : String :=
  hexDigit (b.toNat / 16) ++ hexDigit (b.toNat % 16)

/-- Four hexadecimal digits. -/
def hexWord (w : Word) : String :=
  hexByte (highByte w) ++ hexByte (lowByte w)

/-- The operand in the syntax of 30_encoding.md R101; a branch shows its target. -/
def operandText (addr : Word) : Operand → String
  | .imp => ""
  | .acc => " A"
  | .imm b => " #$" ++ hexByte b
  | .mem (.zp b) => " $" ++ hexByte b
  | .mem (.zpx b) => " $" ++ hexByte b ++ ",X"
  | .mem (.zpy b) => " $" ++ hexByte b ++ ",Y"
  | .mem (.abs w) => " $" ++ hexWord w
  | .mem (.absx w) => " $" ++ hexWord w ++ ",X"
  | .mem (.absy w) => " $" ++ hexWord w ++ ",Y"
  | .mem (.indx b) => " ($" ++ hexByte b ++ ",X)"
  | .mem (.indy b) => " ($" ++ hexByte b ++ "),Y"
  | .rel off => " $" ++ hexWord (branchTarget addr off)
  | .ind w => " ($" ++ hexWord w ++ ")"

/-- `disassemble(descriptor, address)`: the text of the instruction whose opcode stands at the address. The operand bytes
are read through the bus, so a collaborator can see it; no state of the core changes. -/
def State.disassemble (s : State) (row : Row) (addr : Word) : String × State :=
  let code := State.readBytes (row.mode.length - 1) (addr + 1) s
  match row.mode.takeOperand code.1 with
  | some (operand, _) => (mnemonicText row.mnemonic ++ operandText addr operand, code.2)
  | none => (mnemonicText row.mnemonic, code.2)

end Sys2Proof.Machine
end

