-- ==== Sys2Proof/Safety.lean ====
section
/-! DEFINITION. What counts as a safe run, and the invariants of a machine that was constructed legally. -/

namespace Sys2Proof.Machine

/-- Two states agree in everything but the record of the environment: registers, RAM, RUN and parameters are the same. A bus
read leaves such a state (20_memory.md R58: "the core's own state after an I/O read is the same"). -/
def SameCore (s t : State) : Prop :=
  t = { s with ioIn := t.ioIn, ioDraws := t.ioDraws, ioLog := t.ioLog }

/-- The parameters are legal: PORT_ADDR outside the windows, every table entry bound and no opcode twice, the ROM images in
canonical form within their sizes (10_state.md R31 to R33, 93_implementation_defined.md U11, U18). -/
def Params.legal (q : Params) : Bool :=
  legalPortAddr q.portAddr && tableWellFormed q.optable && q.kernal.canonical romSize && q.basic.canonical romSize
    && q.chargen.canonical chargenSize

/-- RUN tells the truth: a halted machine stands at the address it reports, and the opcode it reports is unpopulated
(10_state.md R36, 60_exceptions.md R240). -/
def State.haltSound (s : State) : Bool :=
  match s.run with
  | .running => true
  | .halted pc opcode => pc == s.pc && (lookup s.params.optable opcode).isNone

/-- The invariant of the machine: RAM in canonical form, legal parameters, RUN sound. -/
def State.inv (s : State) : Bool :=
  s.ram.wf && s.params.legal && s.haltSound

/-- The machine can take `k` steps from `s`, all of them next states. A machine with a legal table is never refused, so a
run that is not safe has halted on an unpopulated opcode. -/
def runsSafely : Nat → State → Prop
  | 0, _ => True
  | k + 1, s => ∃ t, step s = .next t ∧ runsSafely k t

end Sys2Proof.Machine
end

