-- ==== Sys2Proof/Certificates/Slice0/Obligations.lean ====
section
/-! DEFINITION. The statements for the provers, and the words they are written in. Each formalises rules of spec/ or, where
its docstring says so, a choice of the model; `RAM in canonical form` (`ram.wf`) is a premise wherever a statement speaks of
a byte read after a write, and StepKeepsTheInvariant states that every step keeps it. No statement rests on a reset value
or on a free value. -/

open Sys2Proof Sys2Proof.Machine

namespace Sys2Proof.Claims

/-! ## Words the statements share -/

/-- The opcode bytes of a mnemonic in the default table, each with its mode (30_encoding.md R96). -/
def opcodesOf (m : Mnemonic) : List (Byte × Mode) :=
  (optable.filter (fun row => row.mnemonic == m)).map (fun row => (row.opcode, row.mode))

/-- The operand byte of an instruction that reads one, and the state after the reads that fetch it from where the mode says:
the byte in the instruction, or the byte on the bus at the address the mode resolves to (40_addressing.md R110, R111). -/
def dataByte (s : State) : Operand → Option (Byte × State)
  | .imm b => some (b, s)
  | .mem form => some (s.busRead (s.resolve form).1)
  | .imp | .acc | .rel _ | .ind _ => none

/-- Negative is bit 7 of the byte and Zero is 1 exactly when the byte is 0 (10_state.md R26). -/
def NZ (r : Byte) (t : State) : Prop :=
  t.flag .negative = r.getLsbD 7 ∧ (t.flag .zero = true ↔ r.toNat = 0)

/-- Every flag but those named is as before. -/
def FlagsKept (written : List Flag) (s t : State) : Prop :=
  ∀ f : Flag, f ∉ written → t.flag f = s.flag f

/-- PC advanced by `n` bytes mod 65536 (40_addressing.md R124). -/
def PcAfter (s t : State) (n : Nat) : Prop :=
  t.pc.toNat = (s.pc.toNat + n) % 65536

/-- Nothing is stored: every byte of RAM, the parameters and RUN are as in `s`, and the record of the environment is the one
`u` has, the state after the operand reads. -/
def NoStore (s u t : State) : Prop :=
  (∀ b : Word, t.peek b = s.peek b) ∧ t.params = s.params ∧ t.run = s.run ∧
    t.ioIn = u.ioIn ∧ t.ioDraws = u.ioDraws ∧ t.ioLog = u.ioLog

/-- Exactly one bus write, of `v` at `addr`, done in state `u` (20_memory.md R53): RAM at `addr` and no other byte, or one
event to a collaborator and no byte of RAM. -/
def Stored (addr : Word) (v : Byte) (u t : State) : Prop :=
  (∀ b : Word, b ≠ addr → t.peek b = u.peek b) ∧ t.params = u.params ∧ t.run = u.run ∧
    t.ioIn = u.ioIn ∧ t.ioDraws = u.ioDraws ∧
    (u.bank addr ≠ .io → t.peek addr = v ∧ t.ioLog = u.ioLog) ∧
    (u.bank addr = .io → t.peek addr = u.peek addr ∧
      t.ioLog = u.ioLog ++ [.write (ioDevice addr) addr (ioIndex addr) v])

/-- The instruction completes having read one operand byte `m` and stored nothing; `post m t` says what else holds of the
next state `t`. -/
def ReadsOperand (i : Instr) (s : State) (post : Byte → State → Prop) : Prop :=
  ∃ m u t, dataByte s i.operand = some (m, u) ∧ exec i s = .next t ∧ NoStore s u t ∧ PcAfter s t i.mode.length ∧ post m t

/-- X, Y and SP are as before. -/
def XYSpKept (s t : State) : Prop :=
  t.x = s.x ∧ t.y = s.y ∧ t.sp = s.sp

/-- A result in the accumulator with Negative and Zero from it, and no other register or flag written. -/
def AccumulatorNZ (s t : State) (r : Byte) : Prop :=
  t.a = r ∧ XYSpKept s t ∧ NZ r t ∧ FlagsKept [.negative, .zero] s t

/-- A compare of a register byte with `m` (41_logic_arith.md R137): Carry iff `m` is at most the register as unsigned bytes,
Negative and Zero from the truncated difference; no register is written. -/
def Compared (s t : State) (reg m : Byte) : Prop :=
  t.a = s.a ∧ XYSpKept s t ∧ (t.flag .carry = true ↔ m.toNat ≤ reg.toNat) ∧
    NZ (BitVec.ofNat 8 (reg.toNat + 256 - m.toNat)) t ∧ FlagsKept [.carry, .negative, .zero] s t

/-- The instruction completes as a read-modify-write in each of its forms (42_shift_incdec.md R150): in Accumulator mode of
A, in a memory mode of the one byte at the resolved address, read once and written once. `result v c` is the new byte from the
old byte and the old Carry, `carry v` the new Carry if the instruction writes it. -/
def Modifies (i : Instr) (s : State) (result : Byte → Bool → Byte) (carry : Option (Byte → Bool)) : Prop :=
  (i.operand = .acc ∨ ∃ form, i.operand = .mem form) ∧
  (i.operand = .acc → ∃ t, exec i s = .next t ∧ t.a = result s.a (s.flag .carry) ∧ XYSpKept s t ∧ NZ t.a t ∧
    (∀ c, carry = some c → t.flag .carry = c s.a ∧ FlagsKept [.carry, .negative, .zero] s t) ∧
    (carry = none → FlagsKept [.negative, .zero] s t) ∧ NoStore s s t ∧ PcAfter s t i.mode.length) ∧
  (∀ form, i.operand = .mem form → ∃ addr v u t, addr = (s.resolve form).1 ∧ s.busRead addr = (v, u) ∧
    SameCore s u ∧ exec i s = .next t ∧ t.a = s.a ∧ XYSpKept s t ∧ NZ (result v (s.flag .carry)) t ∧
    (∀ c, carry = some c → t.flag .carry = c v ∧ FlagsKept [.carry, .negative, .zero] s t) ∧
    (carry = none → FlagsKept [.negative, .zero] s t) ∧
    Stored addr (result v (s.flag .carry)) u t ∧ PcAfter s t i.mode.length)

/-- The instruction completes as a store of `v`: one write at the resolved address and no read of it, no register but PC and
no flag written (43_load_store_transfer.md R170). -/
def Stores (i : Instr) (s : State) (v : Byte) : Prop :=
  ∃ form t, i.operand = .mem form ∧ exec i s = .next t ∧ Stored (s.resolve form).1 v s t ∧ PcAfter s t i.mode.length ∧
    t.a = s.a ∧ XYSpKept s t ∧ t.p = s.p

/-- One of the eight branches (44_flag_branch.md R198): its opcode byte, and for every offset and state the next state, equal
to the old one but for PC: the target if flag `f` has value `v`, else the next instruction. -/
def Branches (i : Byte → Instr) (opcode : Byte) (f : Flag) (v : Bool) : Prop :=
  ∀ (off : Byte) (s : State), encode (i off) = [opcode, off] ∧
    ∃ t, exec (i off) s = .next t ∧ t = { s with pc := t.pc } ∧
      (s.flag f = v → t.pc = BitVec.ofInt 16 (s.pc.toNat + 2 + off.toInt)) ∧
      (s.flag f ≠ v → t.pc = BitVec.ofNat 16 (s.pc.toNat + 2))

/-- One of the seven flag instructions (44_flag_branch.md R190): its opcode byte, and the next state, equal to the old one but
for PC and the one flag. -/
def WritesFlag (i : Instr) (opcode : Byte) (f : Flag) (v : Bool) : Prop :=
  encode i = [opcode] ∧ ∀ s : State, ∃ t, exec i s = .next t ∧ t = { s with p := t.p, pc := t.pc } ∧
    PcAfter s t 1 ∧ t.flag f = v ∧ FlagsKept [f] s t

/-- A state's stack bytes: exactly the bytes at the slots of the stack pointers in `slots` are written, in a state that is
otherwise `s` but for `P`, `SP` and `PC`. -/
def OnlyStackWritten (slots : List Byte) (s t : State) : Prop :=
  t = { s with p := t.p, sp := t.sp, pc := t.pc, ram := t.ram } ∧
    ∀ b : Word, (∀ sp ∈ slots, b ≠ stackSlot sp) → t.peek b = s.peek b

/-- 10_state.md R24: the mnemonics that may write each flag. -/
def flagWriters : Flag → List Mnemonic
  | .carry => [.adc, .sbc, .cmp, .cpx, .cpy, .asl, .lsr, .rol, .ror, .clc, .sec, .plp, .rti]
  | .zero => [.ora, .and, .eor, .adc, .sbc, .cmp, .cpx, .cpy, .bit, .asl, .lsr, .rol, .ror, .inc, .dec, .inx, .iny, .dex,
      .dey, .lda, .ldx, .ldy, .tax, .txa, .tay, .tya, .pla, .plp, .rti]
  | .interrupt => [.sei, .cli, .brk, .plp, .rti]
  | .decimal => [.sed, .cld, .plp, .rti]
  | .brk => [.brk, .plp, .rti]
  | .unused => [.plp, .rti]
  | .overflow => [.adc, .sbc, .bit, .clv, .plp, .rti]
  | .negative => [.ora, .and, .eor, .adc, .sbc, .cmp, .cpx, .cpy, .bit, .asl, .lsr, .rol, .ror, .inc, .dec, .inx, .iny,
      .dex, .dey, .lda, .ldx, .ldy, .tax, .txa, .tay, .tya, .pla, .plp, .rti]

/-- The instructions that may change a byte of RAM: stores, read-modify-writes and pushes. -/
def ramWriters : List Mnemonic :=
  [.sta, .stx, .sty, .asl, .lsr, .rol, .ror, .inc, .dec, .pha, .php, .jsr, .brk]

/-- The control transfers, which assign PC themselves (40_addressing.md R124). -/
def controlTransfers : List Mnemonic :=
  [.bpl, .bmi, .bvc, .bvs, .bcc, .bcs, .bne, .beq, .jmp, .jsr, .rts, .rti, .brk]

/-- The 105 unpopulated opcode bytes of 30_encoding.md R97. -/
def illegalBytes : List Byte := [
    0x02, 0x03, 0x04, 0x07, 0x0B, 0x0C, 0x0F, 0x12, 0x13, 0x14, 0x17, 0x1A, 0x1B, 0x1C,
    0x1F, 0x22, 0x23, 0x27, 0x2B, 0x2F, 0x32, 0x33, 0x34, 0x37, 0x3A, 0x3B, 0x3C, 0x3F,
    0x42, 0x43, 0x44, 0x47, 0x4B, 0x4F, 0x52, 0x53, 0x54, 0x57, 0x5A, 0x5B, 0x5C, 0x5F,
    0x62, 0x63, 0x64, 0x67, 0x6B, 0x6F, 0x72, 0x73, 0x74, 0x77, 0x7A, 0x7B, 0x7C, 0x7F,
    0x80, 0x82, 0x83, 0x87, 0x89, 0x8B, 0x8F, 0x92, 0x93, 0x97, 0x9B, 0x9C, 0x9E, 0x9F,
    0xA3, 0xA7, 0xAB, 0xAF, 0xB2, 0xB3, 0xB7, 0xBB, 0xBF, 0xC2, 0xC3, 0xC7, 0xCB, 0xCF,
    0xD2, 0xD3, 0xD4, 0xD7, 0xDA, 0xDB, 0xDC, 0xDF, 0xE2, 0xE3, 0xE7, 0xEB, 0xEF, 0xF2,
    0xF3, 0xF4, 0xF7, 0xFA, 0xFB, 0xFC, 0xFF]

end Sys2Proof.Claims

open Sys2Proof.Claims

/-- Decode after encode, for any table and any instruction it populates (30_encoding.md R90, R93, R103); the table is an argument, as R95 asks, and the default one populates every instruction. -/
def Obligations.DecodeUndoesEncode : Prop :=
  (∀ (table : List Row) (i : Instr) (rest : List Byte), opcodesDistinct table = true → i.wellFormedIn table = true →
    ∃ bytes, encodeWith table i = some bytes ∧ bytes.length = i.mode.length ∧
      decodeWith table (bytes ++ rest) = .ok (i, rest)) ∧
  ∀ (i : Instr) (rest : List Byte), decode (encode i ++ rest) = .ok (i, rest)

/-- Encode after decode: no bit of an encoding is ignored (30_encoding.md R94, R103). -/
def Obligations.EncodeUndoesDecode : Prop :=
  ∀ (table : List Row) (bytes rest : List Byte) (i : Instr), decodeWith table bytes = .ok (i, rest) →
    (∃ row ∈ table, row.mnemonic = i.mnemonic ∧ row.mode = i.mode ∧
      bytes = row.opcode :: i.operand.bytes ++ rest) ∧
    (pairsDistinct table = true → ∃ code, encodeWith table i = some code ∧ bytes = code ++ rest)

/-- The default OPTABLE (30_encoding.md R96, R97; the table is the spec's decision D4, assumption 1). -/
def Obligations.DefaultTableIsLegal : Prop :=
  optable.length = 151 ∧ tableWellFormed optable = true ∧ pairsDistinct optable = true ∧
    (∀ i : Instr, i.wellFormed = true) ∧ (∀ b : Byte, lookup optable b = none ↔ b ∈ illegalBytes) ∧
    ∀ (b : Byte) (rest : List Byte), b ∈ illegalBytes → decode (b :: rest) = .error (.illegal b)

/-- 30_encoding.md R93: the decoder takes the length from the entry's mode tag, by the opcode byte alone. -/
def Obligations.LengthIsToldByTheOpcodeByte : Prop :=
  ∀ (table : List Row) (opcode : Byte),
    (lookup table opcode = none → instrLength table opcode = none) ∧
    (∀ row, lookup table opcode = some row → instrLength table opcode = some row.mode.length) ∧
    (∀ n, instrLength table opcode = some n → 1 ≤ n ∧ n ≤ 3) ∧
    ∀ (bytes rest : List Byte) (i : Instr), decodeWith table (opcode :: bytes) = .ok (i, rest) →
      instrLength table opcode = some i.mode.length ∧ rest.length + i.mode.length = bytes.length + 1

/-- The example bytes of 30_encoding.md R101, one for each mode, decode as it says (the opcode bytes are decision D4, assumption 1). -/
def Obligations.SampleWordsDecode : Prop :=
  decode [0x18] = .ok (.clc, []) ∧ decode [0x0A] = .ok (.aslAcc, []) ∧ decode [0xA9, 0x05] = .ok (.ldaImm 0x05, []) ∧
  decode [0xA5, 0x10] = .ok (.ldaZp 0x10, []) ∧ decode [0xB5, 0x10] = .ok (.ldaZpx 0x10, []) ∧
  decode [0xB6, 0x10] = .ok (.ldxZpy 0x10, []) ∧ decode [0xAD, 0x34, 0x12] = .ok (.ldaAbs 0x1234, []) ∧
  decode [0xBD, 0x34, 0x12] = .ok (.ldaAbsx 0x1234, []) ∧ decode [0xB9, 0x34, 0x12] = .ok (.ldaAbsy 0x1234, []) ∧
  decode [0xA1, 0x20] = .ok (.ldaIndx 0x20, []) ∧ decode [0xB1, 0x20] = .ok (.ldaIndy 0x20, []) ∧
  decode [0xD0, 0xFE] = .ok (.bne 0xFE, []) ∧ decode [0x6C, 0x34, 0x12] = .ok (.jmpInd 0x1234, [])

/-- 10_state.md R26 and R27, bit by bit on the status byte as a number. -/
def Obligations.FlagWritesAreMasked : Prop :=
  (∀ (f : Flag) (v : Bool) (p : Byte) (k : Nat), k < 8 →
    (setFlag f v p).toNat.testBit k = if k = f.bit then v else p.toNat.testBit k) ∧
  ∀ (b p : Byte) (k : Nat), k < 8 →
    (deriveNZ b p).toNat.testBit k =
      if k = 7 then decide (128 ≤ b.toNat) else if k = 1 then decide (b.toNat = 0) else p.toNat.testBit k

/-- The bank decode of 20_memory.md R51 in numbers. That "nonzero" means at least one bit set is the spec's decision D15 (assumption 19). -/
def Obligations.BankDecodeByPortBits : Prop :=
  (∀ (port : Byte) (addr : Word), bankOf port addr =
    if 0xA000 ≤ addr.toNat ∧ addr.toNat ≤ 0xBFFF then
      if port.toNat % 4 = 0 then .ram else .basic
    else if 0xD000 ≤ addr.toNat ∧ addr.toNat ≤ 0xDFFF then
      if port.toNat % 4 = 0 then .ram else if port.toNat / 4 % 2 = 1 then .io else .chargen
    else if 0xE000 ≤ addr.toNat then
      if port.toNat / 2 % 2 = 1 then .kernal else .ram
    else .ram) ∧
  ∀ (p q : Byte) (addr : Word), p.toNat % 8 = q.toNat % 8 → bankOf p addr = bankOf q addr

/-- 20_memory.md R56: re-derived at each access from the value RAM[PORT_ADDR] holds then, and from no other RAM byte. -/
def Obligations.BankIsDerivedFromThePortByteAlone : Prop :=
  (∀ (s t : State) (addr : Word), s.peek s.params.portAddr = t.peek t.params.portAddr → s.bank addr = t.bank addr) ∧
  ∀ (s : State) (v : Byte) (addr : Word), s.ram.wf = true → s.bank s.params.portAddr ≠ .io →
    (s.busWrite s.params.portAddr v).bank addr = bankOf v addr

/-- 20_memory.md R51, R52, R58 ("any byte, that the core does not determine"). The ROM offset is the spec's decision D26; the queue of answers and the event record are the model's (assumptions 9, 10, 19). -/
def Obligations.BusReadReturnsTheSelectedByte : Prop :=
  ∀ (s : State) (addr : Word),
    (s.bank addr = .ram → s.busRead addr = (s.peek addr, s)) ∧
    (s.bank addr = .basic → s.busRead addr = (s.params.basic.read (addr.toNat - 0xA000), s)) ∧
    (s.bank addr = .chargen → s.busRead addr = (s.params.chargen.read (addr.toNat - 0xD000), s)) ∧
    (s.bank addr = .kernal → s.busRead addr = (s.params.kernal.read (addr.toNat - 0xE000), s)) ∧
    (s.bank addr = .io → ∃ b t, s.busRead addr = (b, t) ∧ SameCore s t ∧
      t.ioLog = s.ioLog ++ [.read (ioDevice addr) addr (ioIndex addr) b] ∧
      (∀ c rest, s.ioIn = c :: rest → b = c ∧ t.ioIn = rest ∧ t.ioDraws = s.ioDraws) ∧
      (s.ioIn = [] → t.ioIn = [] ∧ t.ioDraws = s.ioDraws + 1)) ∧
    (s.bank addr = .io → ∀ b : Byte, ∃ answers, ({ s with ioIn := answers }.busRead addr).1 = b)

/-- 20_memory.md R53. That an I/O write does not also reach RAM is the spec's decision D25 (assumption 19). -/
def Obligations.BusWriteReachesRamOrTheCollaborator : Prop :=
  ∀ (s : State) (addr : Word) (v : Byte), s.ram.wf = true →
    Stored addr v s (s.busWrite addr v) ∧ (s.busWrite addr v).ram.wf = true ∧
    s.busWrite addr v = { s with ram := (s.busWrite addr v).ram, ioLog := (s.busWrite addr v).ioLog }

/-- 20_memory.md R62. A legal PORT_ADDR lies outside the windows (10_state.md R33); RAM is in canonical form. -/
def Obligations.WriteThenReadReturnsTheByteUnlessRom : Prop :=
  ∀ (s : State) (addr : Word) (v : Byte), s.ram.wf = true → legalPortAddr s.params.portAddr = true →
    (s.bank addr ≠ .io → (s.busRead addr).2 = s) ∧
    (s.bank addr = .ram → ((s.busWrite addr v).busRead addr).1 = v) ∧
    (s.bank addr = .basic ∨ s.bank addr = .chargen ∨ s.bank addr = .kernal →
      ((s.busWrite addr v).busRead addr).1 = (s.busRead addr).1 ∧
      (∀ w : Byte, bankOf w addr = .ram →
        (((s.busWrite addr v).busWrite s.params.portAddr w).busRead addr).1 = v) ∧
      ∀ t : State, t.params = s.params → t.peek addr = (s.busWrite addr v).peek addr → t.bank addr = .ram →
        (t.busRead addr).1 = v)

/-- 20_memory.md R54 and R55. The order of the reads and the wrap mod 65536 are the spec's decisions D13, D14 (assumptions 17, 18). -/
def Obligations.WordsAreLittleEndian : Prop :=
  ∀ (s : State) (addr : Word), ∃ low u high t next, next.toNat = (addr.toNat + 1) % 65536 ∧
    s.busRead addr = (low, u) ∧ u.busRead next = (high, t) ∧ (s.readWord addr).2 = t ∧
    (s.readWord addr).1.toNat = high.toNat * 256 + low.toNat ∧
    ∀ w : Word, ∃ l h : Byte, l.toNat = w.toNat % 256 ∧ h.toNat = w.toNat / 256 ∧
      s.writeWord addr w = (s.busWrite addr l).busWrite next h

/-- 20_memory.md R51, R64 and 10_state.md R21; STACK_BASE is the spec's decision D2 (assumption 4). -/
def Obligations.PagesZeroAndOneAreAlwaysRam : Prop :=
  (∀ (s : State) (addr : Word), addr.toNat < 0xA000 ∨ (0xC000 ≤ addr.toNat ∧ addr.toNat < 0xD000) → s.bank addr = .ram) ∧
  ∀ (s : State) (sp : Byte), (stackSlot sp).toNat = 0x0100 + sp.toNat ∧ s.bank (stackSlot sp) = .ram

/-- 40_addressing.md R112 to R117, R119, R120. The absence of a page wrap in a pointer read and the wrap mod 65536 are the spec's decisions D11, D13 (assumption 17). -/
def Obligations.ResolversGiveTheAddressOfTheirMode : Prop :=
  ∀ (s : State) (b : Byte) (w : Word),
    (∀ form, (s.resolve form).2 = s) ∧
    (s.resolve (.zp b)).1.toNat = b.toNat ∧
    (s.resolve (.zpx b)).1.toNat = (b.toNat + s.x.toNat) % 256 ∧
    (s.resolve (.zpy b)).1.toNat = (b.toNat + s.y.toNat) % 256 ∧
    (s.resolve (.abs w)).1 = w ∧
    (s.resolve (.absx w)).1.toNat = (w.toNat + s.x.toNat) % 65536 ∧
    (s.resolve (.absy w)).1.toNat = (w.toNat + s.y.toNat) % 65536 ∧
    (∀ p q : Word, p.toNat = (b.toNat + s.x.toNat) % 256 → q.toNat = p.toNat + 1 →
      (s.resolve (.indx b)).1.toNat = (s.peek q).toNat * 256 + (s.peek p).toNat) ∧
    ∀ p q : Word, p.toNat = b.toNat → q.toNat = p.toNat + 1 →
      (s.resolve (.indy b)).1.toNat = ((s.peek q).toNat * 256 + (s.peek p).toNat + s.y.toNat) % 65536

/-- 41_logic_arith.md R131 to R133, all eight modes of each (assumption 25 for the opcode bytes and mnemonics). -/
def Obligations.LogicInstructionsResult : Prop :=
  opcodesOf .ora = [(0x01, .indx), (0x05, .zp), (0x09, .imm), (0x0D, .abs), (0x11, .indy), (0x15, .zpx), (0x19, .absy), (0x1D, .absx)] ∧
  opcodesOf .and = [(0x21, .indx), (0x25, .zp), (0x29, .imm), (0x2D, .abs), (0x31, .indy), (0x35, .zpx), (0x39, .absy), (0x3D, .absx)] ∧
  opcodesOf .eor = [(0x41, .indx), (0x45, .zp), (0x49, .imm), (0x4D, .abs), (0x51, .indy), (0x55, .zpx), (0x59, .absy), (0x5D, .absx)] ∧
  ∀ (i : Instr) (s : State),
    (i.mnemonic = .ora → ReadsOperand i s (fun m t => AccumulatorNZ s t (s.a ||| m))) ∧
    (i.mnemonic = .and → ReadsOperand i s (fun m t => AccumulatorNZ s t (s.a &&& m))) ∧
    (i.mnemonic = .eor → ReadsOperand i s (fun m t => AccumulatorNZ s t (s.a ^^^ m)))

/-- 41_logic_arith.md R134, all eight modes. That the result is binary whatever Decimal holds is R136, the spec's decision D6 (assumption 14). -/
def Obligations.AdcResult : Prop :=
  opcodesOf .adc = [(0x61, .indx), (0x65, .zp), (0x69, .imm), (0x6D, .abs), (0x71, .indy), (0x75, .zpx), (0x79, .absy), (0x7D, .absx)] ∧
  ∀ (i : Instr) (s : State), i.mnemonic = .adc → ReadsOperand i s (fun m t =>
    t.a.toNat = (s.a.toNat + m.toNat + (s.flag .carry).toNat) % 256 ∧
    (t.flag .carry = true ↔ 255 < s.a.toNat + m.toNat + (s.flag .carry).toNat) ∧
    (t.flag .overflow = true ↔ s.a.getLsbD 7 = m.getLsbD 7 ∧ t.a.getLsbD 7 ≠ s.a.getLsbD 7) ∧
    NZ t.a t ∧ XYSpKept s t ∧ FlagsKept [.carry, .overflow, .negative, .zero] s t)

/-- 41_logic_arith.md R135, all eight modes; SBC is the spec's decision D5 from general knowledge (assumption 25). -/
def Obligations.SbcResult : Prop :=
  opcodesOf .sbc = [(0xE1, .indx), (0xE5, .zp), (0xE9, .imm), (0xED, .abs), (0xF1, .indy), (0xF5, .zpx), (0xF9, .absy), (0xFD, .absx)] ∧
  ∀ (i : Instr) (s : State), i.mnemonic = .sbc → ReadsOperand i s (fun m t =>
    (t.a.toNat : Int) = ((s.a.toNat : Int) - m.toNat - (1 - (s.flag .carry).toNat)) % 256 ∧
    (t.flag .carry = true ↔ m.toNat + (1 - (s.flag .carry).toNat) ≤ s.a.toNat) ∧
    (t.flag .overflow = true ↔ s.a.getLsbD 7 ≠ m.getLsbD 7 ∧ t.a.getLsbD 7 ≠ s.a.getLsbD 7) ∧
    NZ t.a t ∧ XYSpKept s t ∧ FlagsKept [.carry, .overflow, .negative, .zero] s t)

/-- The signed reading of Overflow (41_logic_arith.md R141), on the shared computations that ADC and SBC call; SBC is decision D5 (assumption 25). -/
def Obligations.OverflowIsSignedRange : Prop :=
  ∀ a m p : Byte,
    (getFlag (addWithCarry a m p).2 .overflow = true ↔
      a.toInt + m.toInt + (getFlag p .carry).toNat < -128 ∨ 127 < a.toInt + m.toInt + (getFlag p .carry).toNat) ∧
    (getFlag (subtractWithCarry a m p).2 .overflow = true ↔
      a.toInt - m.toInt - (1 - (getFlag p .carry).toNat : Int) < -128 ∨
      127 < a.toInt - m.toInt - (1 - (getFlag p .carry).toNat : Int))

/-- 41_logic_arith.md R137, all eight modes. -/
def Obligations.CmpResult : Prop :=
  opcodesOf .cmp = [(0xC1, .indx), (0xC5, .zp), (0xC9, .imm), (0xCD, .abs), (0xD1, .indy), (0xD5, .zpx), (0xD9, .absy), (0xDD, .absx)] ∧
  ∀ (i : Instr) (s : State), i.mnemonic = .cmp → ReadsOperand i s (fun m t => Compared s t s.a m)

/-- 41_logic_arith.md R138, R139; the mnemonics are from general knowledge (decision D5, assumption 25). -/
def Obligations.CpxCpyResult : Prop :=
  opcodesOf .cpx = [(0xE0, .imm), (0xE4, .zp), (0xEC, .abs)] ∧
  opcodesOf .cpy = [(0xC0, .imm), (0xC4, .zp), (0xCC, .abs)] ∧
  ∀ (i : Instr) (s : State),
    (i.mnemonic = .cpx → ReadsOperand i s (fun m t => Compared s t s.x m)) ∧
    (i.mnemonic = .cpy → ReadsOperand i s (fun m t => Compared s t s.y m))

/-- 41_logic_arith.md R140; BIT is the spec's decision D5 from general knowledge (assumption 25). -/
def Obligations.BitResult : Prop :=
  opcodesOf .bit = [(0x24, .zp), (0x2C, .abs)] ∧
  ∀ (i : Instr) (s : State), i.mnemonic = .bit → ReadsOperand i s (fun m t =>
    (t.flag .zero = true ↔ (s.a &&& m).toNat = 0) ∧ t.flag .negative = m.getLsbD 7 ∧ t.flag .overflow = m.getLsbD 6 ∧
    t.a = s.a ∧ XYSpKept s t ∧ FlagsKept [.zero, .negative, .overflow] s t)

/-- 42_shift_incdec.md R151 to R154, Accumulator and the four memory modes; the byte as a number. -/
def Obligations.ShiftsAndRotatesResult : Prop :=
  opcodesOf .asl = [(0x06, .zp), (0x0A, .acc), (0x0E, .abs), (0x16, .zpx), (0x1E, .absx)] ∧
  opcodesOf .lsr = [(0x46, .zp), (0x4A, .acc), (0x4E, .abs), (0x56, .zpx), (0x5E, .absx)] ∧
  opcodesOf .rol = [(0x26, .zp), (0x2A, .acc), (0x2E, .abs), (0x36, .zpx), (0x3E, .absx)] ∧
  opcodesOf .ror = [(0x66, .zp), (0x6A, .acc), (0x6E, .abs), (0x76, .zpx), (0x7E, .absx)] ∧
  ∀ (i : Instr) (s : State), s.ram.wf = true →
    (i.mnemonic = .asl → Modifies i s (fun v _ => BitVec.ofNat 8 (2 * v.toNat)) (some (fun v => v.getLsbD 7))) ∧
    (i.mnemonic = .lsr → Modifies i s (fun v _ => BitVec.ofNat 8 (v.toNat / 2)) (some (fun v => v.getLsbD 0))) ∧
    (i.mnemonic = .rol → Modifies i s (fun v c => BitVec.ofNat 8 (2 * v.toNat + c.toNat)) (some (fun v => v.getLsbD 7))) ∧
    (i.mnemonic = .ror →
      Modifies i s (fun v c => BitVec.ofNat 8 (v.toNat / 2 + 128 * c.toNat)) (some (fun v => v.getLsbD 0)))

/-- 42_shift_incdec.md R155, R156, the four memory modes of each. -/
def Obligations.IncDecResult : Prop :=
  opcodesOf .inc = [(0xE6, .zp), (0xEE, .abs), (0xF6, .zpx), (0xFE, .absx)] ∧
  opcodesOf .dec = [(0xC6, .zp), (0xCE, .abs), (0xD6, .zpx), (0xDE, .absx)] ∧
  ∀ (i : Instr) (s : State), s.ram.wf = true →
    (i.mnemonic = .inc → Modifies i s (fun v _ => BitVec.ofNat 8 (v.toNat + 1)) none) ∧
    (i.mnemonic = .dec → Modifies i s (fun v _ => BitVec.ofNat 8 (v.toNat + 255)) none)

/-- 42_shift_incdec.md R157 to R160; the mnemonics INY and DEX are from general knowledge (decision D5, assumption 25). -/
def Obligations.IndexRegisterIncrementAndDecrement : Prop :=
  opcodesOf .inx = [(0xE8, .imp)] ∧
  opcodesOf .iny = [(0xC8, .imp)] ∧
  opcodesOf .dex = [(0xCA, .imp)] ∧
  opcodesOf .dey = [(0x88, .imp)] ∧
  ∀ s : State,
    (∃ t, exec .inx s = .next t ∧ t.x.toNat = (s.x.toNat + 1) % 256 ∧ NZ t.x t ∧ t.a = s.a ∧ t.y = s.y ∧ t.sp = s.sp ∧
      FlagsKept [.negative, .zero] s t ∧ NoStore s s t ∧ PcAfter s t 1) ∧
    (∃ t, exec .iny s = .next t ∧ t.y.toNat = (s.y.toNat + 1) % 256 ∧ NZ t.y t ∧ t.a = s.a ∧ t.x = s.x ∧ t.sp = s.sp ∧
      FlagsKept [.negative, .zero] s t ∧ NoStore s s t ∧ PcAfter s t 1) ∧
    (∃ t, exec .dex s = .next t ∧ t.x.toNat = (s.x.toNat + 255) % 256 ∧ NZ t.x t ∧ t.a = s.a ∧ t.y = s.y ∧ t.sp = s.sp ∧
      FlagsKept [.negative, .zero] s t ∧ NoStore s s t ∧ PcAfter s t 1) ∧
    (∃ t, exec .dey s = .next t ∧ t.y.toNat = (s.y.toNat + 255) % 256 ∧ NZ t.y t ∧ t.a = s.a ∧ t.x = s.x ∧ t.sp = s.sp ∧
      FlagsKept [.negative, .zero] s t ∧ NoStore s s t ∧ PcAfter s t 1)

/-- 43_load_store_transfer.md R171 to R173, every mode of each. -/
def Obligations.LoadsResult : Prop :=
  opcodesOf .lda = [(0xA1, .indx), (0xA5, .zp), (0xA9, .imm), (0xAD, .abs), (0xB1, .indy), (0xB5, .zpx), (0xB9, .absy), (0xBD, .absx)] ∧
  opcodesOf .ldx = [(0xA2, .imm), (0xA6, .zp), (0xAE, .abs), (0xB6, .zpy), (0xBE, .absy)] ∧
  opcodesOf .ldy = [(0xA0, .imm), (0xA4, .zp), (0xAC, .abs), (0xB4, .zpx), (0xBC, .absx)] ∧
  ∀ (i : Instr) (s : State),
    (i.mnemonic = .lda → ReadsOperand i s (fun m t =>
      t.a = m ∧ NZ m t ∧ t.x = s.x ∧ t.y = s.y ∧ t.sp = s.sp ∧ FlagsKept [.negative, .zero] s t)) ∧
    (i.mnemonic = .ldx → ReadsOperand i s (fun m t =>
      t.x = m ∧ NZ m t ∧ t.a = s.a ∧ t.y = s.y ∧ t.sp = s.sp ∧ FlagsKept [.negative, .zero] s t)) ∧
    (i.mnemonic = .ldy → ReadsOperand i s (fun m t =>
      t.y = m ∧ NZ m t ∧ t.a = s.a ∧ t.x = s.x ∧ t.sp = s.sp ∧ FlagsKept [.negative, .zero] s t))

/-- 43_load_store_transfer.md R174 to R176, every mode of each. -/
def Obligations.StoresResult : Prop :=
  opcodesOf .sta = [(0x81, .indx), (0x85, .zp), (0x8D, .abs), (0x91, .indy), (0x95, .zpx), (0x99, .absy), (0x9D, .absx)] ∧
  opcodesOf .stx = [(0x86, .zp), (0x8E, .abs), (0x96, .zpy)] ∧
  opcodesOf .sty = [(0x84, .zp), (0x8C, .abs), (0x94, .zpx)] ∧
  ∀ (i : Instr) (s : State), s.ram.wf = true →
    (i.mnemonic = .sta → Stores i s s.a) ∧ (i.mnemonic = .stx → Stores i s s.x) ∧ (i.mnemonic = .sty → Stores i s s.y)

/-- 43_load_store_transfer.md R178 to R181, and the effect of TXS in R183. -/
def Obligations.TransfersResult : Prop :=
  opcodesOf .tax = [(0xAA, .imp)] ∧
  opcodesOf .txa = [(0x8A, .imp)] ∧
  opcodesOf .tay = [(0xA8, .imp)] ∧
  opcodesOf .tya = [(0x98, .imp)] ∧
  opcodesOf .txs = [(0x9A, .imp)] ∧
  ∀ s : State,
    (∃ t, exec .tax s = .next t ∧ t.x = s.a ∧ t.a = s.a ∧ t.y = s.y ∧ t.sp = s.sp ∧
      NZ s.a t ∧ FlagsKept [.negative, .zero] s t ∧ NoStore s s t ∧ PcAfter s t 1) ∧
    (∃ t, exec .txa s = .next t ∧ t.a = s.x ∧ t.x = s.x ∧ t.y = s.y ∧ t.sp = s.sp ∧
      NZ s.x t ∧ FlagsKept [.negative, .zero] s t ∧ NoStore s s t ∧ PcAfter s t 1) ∧
    (∃ t, exec .tay s = .next t ∧ t.y = s.a ∧ t.a = s.a ∧ t.x = s.x ∧ t.sp = s.sp ∧
      NZ s.a t ∧ FlagsKept [.negative, .zero] s t ∧ NoStore s s t ∧ PcAfter s t 1) ∧
    (∃ t, exec .tya s = .next t ∧ t.a = s.y ∧ t.x = s.x ∧ t.y = s.y ∧ t.sp = s.sp ∧
      NZ s.y t ∧ FlagsKept [.negative, .zero] s t ∧ NoStore s s t ∧ PcAfter s t 1) ∧
    (∃ t, exec .txs s = .next t ∧ t.sp = s.x ∧ t.a = s.a ∧ t.x = s.x ∧ t.y = s.y ∧
      t.p = s.p ∧ NoStore s s t ∧ PcAfter s t 1)

/-- 43_load_store_transfer.md R182: the spec's decision D10, unlike a real 6502 (assumption 16); 44_flag_branch.md R207: NOP is decision D5 (assumption 25). -/
def Obligations.TsxAndNopWriteNoFlag : Prop :=
  opcodesOf .tsx = [(0xBA, .imp)] ∧
  opcodesOf .nop = [(0xEA, .imp)] ∧
  ∀ s : State,
    (∃ t, exec .tsx s = .next t ∧ t.x = s.sp ∧ t.a = s.a ∧ t.y = s.y ∧ t.sp = s.sp ∧
      t.p = s.p ∧ NoStore s s t ∧ PcAfter s t 1) ∧
    ∃ t, exec .nop s = .next t ∧ t = { s with pc := t.pc } ∧ PcAfter s t 1

/-- 44_flag_branch.md R190 to R197. -/
def Obligations.FlagInstructionsResult : Prop :=
  WritesFlag .clc 0x18 .carry false ∧
  WritesFlag .sec 0x38 .carry true ∧
  WritesFlag .cli 0x58 .interrupt false ∧
  WritesFlag .sei 0x78 .interrupt true ∧
  WritesFlag .cld 0xD8 .decimal false ∧
  WritesFlag .sed 0xF8 .decimal true ∧
  WritesFlag .clv 0xB8 .overflow false

/-- 44_flag_branch.md R198 to R206. The wrap mod 65536 is decision D13; the flag and polarity of all but BNE are decision D31 (assumptions 17, 25). -/
def Obligations.BranchesResult : Prop :=
  Branches .bpl 0x10 .negative false ∧
  Branches .bmi 0x30 .negative true ∧
  Branches .bvc 0x50 .overflow false ∧
  Branches .bvs 0x70 .overflow true ∧
  Branches .bcc 0x90 .carry false ∧
  Branches .bcs 0xB0 .carry true ∧
  Branches .bne 0xD0 .zero false ∧
  Branches .beq 0xF0 .zero true

/-- 45_stack_control.md R215, R216. That the page starts at 0x0100 is the spec's decision D2 in 10_state.md R21 (assumption 4). -/
def Obligations.PushAndPullOfAByte : Prop :=
  ∀ (s : State) (v : Byte), s.ram.wf = true →
    ((s.push v).peek (stackSlot s.sp) = v ∧ (∀ b : Word, b ≠ stackSlot s.sp → (s.push v).peek b = s.peek b) ∧
      (s.push v).sp.toNat = (s.sp.toNat + 255) % 256 ∧
      s.push v = { s with sp := (s.push v).sp, ram := (s.push v).ram }) ∧
    (∃ n : Byte, n.toNat = (s.sp.toNat + 1) % 256 ∧ s.pull = (s.peek (stackSlot n), { s with sp := n })) ∧
    (stackSlot s.sp).toNat = 0x0100 + s.sp.toNat ∧
    ((s.push v).pull.1 = v ∧ (s.push v).pull.2.sp = s.sp) ∧
    (Nat.iterate (fun u : State => u.push v) 256 s).sp = s.sp ∧
    (Nat.iterate (fun u : State => u.pull.2) 256 s).sp = s.sp

/-- 45_stack_control.md R217, R218. -/
def Obligations.PhaPlaResult : Prop :=
  opcodesOf .pha = [(0x48, .imp)] ∧
  opcodesOf .pla = [(0x68, .imp)] ∧
  ∀ s : State, s.ram.wf = true →
    (∃ t, exec .pha s = .next t ∧ t.peek (stackSlot s.sp) = s.a ∧ OnlyStackWritten [s.sp] s t ∧ t.p = s.p ∧
      t.sp.toNat = (s.sp.toNat + 255) % 256 ∧ PcAfter s t 1) ∧
    (∃ t, exec .pla s = .next t ∧ t.a = s.peek (stackSlot (s.sp + 1)) ∧ t.sp.toNat = (s.sp.toNat + 1) % 256 ∧ NZ t.a t ∧
      FlagsKept [.negative, .zero] s t ∧ t = { s with a := t.a, sp := t.sp, p := t.p, pc := t.pc } ∧ PcAfter s t 1)

/-- 45_stack_control.md R219, R220: the spec's decisions D7, D8 (assumption 15). -/
def Obligations.PhpPlpResult : Prop :=
  opcodesOf .php = [(0x08, .imp)] ∧
  opcodesOf .plp = [(0x28, .imp)] ∧
  ∀ s : State, s.ram.wf = true →
    (∃ t, exec .php s = .next t ∧ t.peek (stackSlot s.sp) = s.p ∧ OnlyStackWritten [s.sp] s t ∧ t.p = s.p ∧
      t.sp.toNat = (s.sp.toNat + 255) % 256 ∧ PcAfter s t 1) ∧
    (∃ t, exec .plp s = .next t ∧ t.p = s.peek (stackSlot (s.sp + 1)) ∧ t.sp.toNat = (s.sp.toNat + 1) % 256 ∧
      t = { s with sp := t.sp, p := t.p, pc := t.pc } ∧ PcAfter s t 1)

/-- 45_stack_control.md R221; that both operand bytes are read before the pushes is decision D14 (assumption 18). -/
def Obligations.JsrResult : Prop :=
  opcodesOf .jsr = [(0x20, .abs)] ∧
  ∀ (s : State) (target : Word), s.ram.wf = true →
    ∃ t, exec (.jsr target) s = .next t ∧ t.pc = target ∧ t.sp.toNat = (s.sp.toNat + 254) % 256 ∧ t.p = s.p ∧
      (t.peek (stackSlot s.sp)).toNat = (s.pc.toNat + 2) % 65536 / 256 ∧
      (t.peek (stackSlot (s.sp - 1))).toNat = (s.pc.toNat + 2) % 256 ∧
      OnlyStackWritten [s.sp, s.sp - 1] s t

/-- 45_stack_control.md R222. -/
def Obligations.RtsResult : Prop :=
  opcodesOf .rts = [(0x60, .imp)] ∧
  ∀ s : State, ∃ t, exec .rts s = .next t ∧ t = { s with sp := t.sp, pc := t.pc } ∧
    t.sp.toNat = (s.sp.toNat + 2) % 256 ∧
    t.pc.toNat =
      ((s.peek (stackSlot (s.sp + 2))).toNat * 256 + (s.peek (stackSlot (s.sp + 1))).toNat + 1) % 65536

/-- 45_stack_control.md R223, 40_addressing.md R123. That the pointer read does not wrap inside its page, and wraps mod 65536, are the spec's decisions D12 and D13 (assumption 17). -/
def Obligations.JmpResult : Prop :=
  opcodesOf .jmp = [(0x4C, .abs), (0x6C, .ind)] ∧
  ∀ (s : State) (w : Word),
    exec (.jmpAbs w) s = .next { s with pc := w } ∧
    ∃ low u high v next t, next.toNat = (w.toNat + 1) % 65536 ∧ s.busRead w = (low, u) ∧ u.busRead next = (high, v) ∧
      exec (.jmpInd w) s = .next t ∧ t = { v with pc := t.pc } ∧ SameCore s v ∧
      t.pc.toNat = high.toNat * 256 + low.toNat

/-- 45_stack_control.md R224: the order is the spec's decision D9, the vector its parameter D3 (assumptions 3, 15). -/
def Obligations.BrkResult : Prop :=
  opcodesOf .brk = [(0x00, .imp)] ∧
  ∀ s : State, s.ram.wf = true →
    ∃ u t : State, exec .brk s = .next t ∧ u = { s with p := s.p ||| 0x14, sp := s.sp - 3, ram := u.ram } ∧
      (u.peek (stackSlot s.sp)).toNat = (s.pc.toNat + 2) % 65536 / 256 ∧
      (u.peek (stackSlot (s.sp - 1))).toNat = (s.pc.toNat + 2) % 256 ∧
      u.peek (stackSlot (s.sp - 2)) = s.p ||| 0x14 ∧
      (∀ b : Word, b ≠ stackSlot s.sp → b ≠ stackSlot (s.sp - 1) → b ≠ stackSlot (s.sp - 2) → u.peek b = s.peek b) ∧
      t = { (u.readWord s.params.brkVector).2 with pc := (u.readWord s.params.brkVector).1 } ∧
      SameCore u (u.readWord s.params.brkVector).2

/-- 45_stack_control.md R225: that all eight bits are loaded is the spec's decision D7 (assumption 15). -/
def Obligations.RtiResult : Prop :=
  opcodesOf .rti = [(0x40, .imp)] ∧
  ∀ s : State, ∃ t, exec .rti s = .next t ∧ t = { s with p := t.p, sp := t.sp, pc := t.pc } ∧
    t.p = s.peek (stackSlot (s.sp + 1)) ∧ t.sp.toNat = (s.sp.toNat + 3) % 256 ∧
    t.pc.toNat = (s.peek (stackSlot (s.sp + 3))).toNat * 256 + (s.peek (stackSlot (s.sp + 2))).toNat

/-- 70_reset_and_hazards.md R279, with R221 and R222; R221 rests on decision D14 (assumption 18). -/
def Obligations.JsrThenRtsReturns : Prop :=
  ∀ (s : State) (target : Word), s.ram.wf = true →
    ∃ t, exec (.jsr target) s = .next t ∧
      ∀ u : State, u.sp = t.sp → u.ram = t.ram →
        ∃ v, exec .rts u = .next v ∧ v.pc.toNat = (s.pc.toNat + 3) % 65536 ∧ v.sp = s.sp

/-- 70_reset_and_hazards.md R280, 45_stack_control.md R224, R225. That BRK sets B and I before it pushes and they stay set is the spec's decision D9, that RTI loads all eight bits its decision D7 (assumption 15). -/
def Obligations.BrkThenRtiSkipsAByte : Prop :=
  ∀ s : State, s.ram.wf = true →
    ∃ t, exec .brk s = .next t ∧ t.flag .brk = true ∧ t.flag .interrupt = true ∧
      ∀ u : State, u.sp = t.sp → u.ram = t.ram →
        ∃ v, exec .rti u = .next v ∧ v.pc.toNat = (s.pc.toNat + 2) % 65536 ∧ v.sp = s.sp ∧
          v.flag .brk = true ∧ v.flag .interrupt = true ∧ FlagsKept [.brk, .interrupt] s v

/-- 42_shift_incdec.md R153: "nine `ROL`s of the same location restore `v` and `C`". -/
def Obligations.NineRotationsRestore : Prop :=
  ∀ v p : Byte,
    (Nat.iterate (fun q : Byte × Byte => rotateLeft q.1 q.2) 9 (v, p)).1 = v ∧
    getFlag (Nat.iterate (fun q : Byte × Byte => rotateLeft q.1 q.2) 9 (v, p)).2 .carry = getFlag p .carry ∧
    (rotateRight (rotateLeft v p).1 (rotateLeft v p).2).1 = v ∧
    getFlag (rotateRight (rotateLeft v p).1 (rotateLeft v p).2).2 .carry = getFlag p .carry

/-- 70_reset_and_hazards.md R278, for the absolute forms. -/
def Obligations.StoreUnderRomIsHidden : Prop :=
  ∀ (s : State) (addr : Word), s.ram.wf = true → legalPortAddr s.params.portAddr = true →
    (s.bank addr = .basic ∨ s.bank addr = .chargen ∨ s.bank addr = .kernal →
      (∃ t u, exec (.staAbs addr) s = .next t ∧ t.peek addr = s.a ∧
        exec (.ldaAbs addr) t = .next u ∧ u.a = (s.busRead addr).1 ∧ u.peek addr = s.a) ∧
      ∃ t, exec (.incAbs addr) s = .next t ∧ t.peek addr = (s.busRead addr).1 + 1 ∧
        (t.busRead addr).1 = (s.busRead addr).1) ∧
    (s.bank addr = .io → ∃ t, exec (.staAbs addr) s = .next t ∧ ∀ b : Word, t.peek b = s.peek b)

/-- 70_reset_and_hazards.md R273; the order of the fetch reads is decision D14 (assumption 18). -/
def Obligations.StepRunsTheDecodedInstruction : Prop :=
  (∀ (s u : State) (code rest : List Byte) (i : Instr), s.run = .running → s.fetch = .bytes code u →
    decodeWith s.params.optable code = .ok (i, rest) → step s = exec i u ∧ SameCore s u) ∧
  ∀ (s : State) (rest : List Byte) (i : Instr), s.run = .running →
    s.bank s.pc ≠ .io → s.bank (s.pc + 1) ≠ .io → s.bank (s.pc + 2) ≠ .io →
    decodeWith s.params.optable [(s.busRead s.pc).1, (s.busRead (s.pc + 1)).1, (s.busRead (s.pc + 2)).1] = .ok (i, rest) →
    step s = exec i s

/-- 60_exceptions.md R240. That the halt is a next state, its report read from RUN, is the model's form (assumption 12). -/
def Obligations.IllegalOpcodeHaltsAndChangesNothingElse : Prop :=
  (∀ s : State, s.run = .running → lookup s.params.optable (s.busRead s.pc).1 = none →
    ∃ t, step s = .next t ∧ t = { (s.busRead s.pc).2 with run := .halted s.pc (s.busRead s.pc).1 } ∧
      SameCore s (s.busRead s.pc).2) ∧
  ∀ b : Byte, lookup optable b = none ↔ b ∈ illegalBytes

/-- 60_exceptions.md R253: that the halt is sticky is the spec's decision D20; that a step of a halted machine is a fault is the model's form (assumption 12). -/
def Obligations.HaltIsStickyUntilReset : Prop :=
  ∀ (s : State) (pc : Word) (opcode : Byte), s.run = .halted pc opcode →
    step s = .fault (.illegalOpcode pc opcode) ∧
    (∀ start n escape, s.hostRun start n escape = ⟨0, s, .illegal pc opcode⟩) ∧
    (∀ addr v, (s.poke addr v).run = .halted pc opcode) ∧
    (∀ r v, (s.setReg r v).run = .halted pc opcode) ∧
    (∀ bytes t, s.loadProgram bytes = .ok t → t.run = .halted pc opcode) ∧
    s.hostReset.run = .running

/-- 60_exceptions.md R241, R243; 41_logic_arith.md R130 item 5; 10_state.md R31, R32. -/
def Obligations.EveryInstructionCompletes : Prop :=
  ∀ (i : Instr) (s : State), ∃ t, exec i s = .next t ∧ t.run = s.run ∧ t.params = s.params ∧
    (s.ram.wf = true → t.ram.wf = true)

/-- 60_exceptions.md R240, R241. That an unbound table entry is refused is the model's form (assumption 13); a legal table has none. -/
def Obligations.RunningLegalMachineAlwaysSteps : Prop :=
  ∀ s : State, s.run = .running → s.params.legal = true →
    ∃ t, step s = .next t ∧ (t.run = .running ↔ lookup s.params.optable (s.busRead s.pc).1 ≠ none)

/-- The invariant State.inv over every step, from every state that meets it (10_state.md R31 to R36). -/
def Obligations.StepKeepsTheInvariant : Prop :=
  ∀ s t : State, s.inv = true → step s = .next t → t.inv = true ∧ t.params = s.params

/-- 10_state.md R35, R36, 70_reset_and_hazards.md R271. It says nothing of the values the model chose (assumptions 5 to 7). -/
def Obligations.ResetMeetsTheInvariant : Prop :=
  State.reset.inv = true ∧ State.reset.run = .running ∧ State.reset.flag .unused = true ∧
    State.reset.pc = (State.reset.readWord 0xFFFC).1 ∧ State.reset.hostReset = State.reset

/-- 10_state.md R24 (which the spec derives from its instruction rules) and R25. -/
def Obligations.FlagsAreWrittenOnlyByTheirWriters : Prop :=
  ∀ (i : Instr) (s t : State) (f : Flag), exec i s = .next t → t.flag f ≠ s.flag f → i.mnemonic ∈ flagWriters f

/-- 10_state.md R28 (which the spec derives from its instruction rules); the writers of RAM are collected from 41_logic_arith.md R130, 42_shift_incdec.md R150, 43_load_store_transfer.md R170 and 45_stack_control.md R217 to R225. -/
def Obligations.RegistersAndRamAreWrittenOnlyByTheirWriters : Prop :=
  ∀ (i : Instr) (s t : State), exec i s = .next t →
    (t.a ≠ s.a → i.mnemonic ∈ [Mnemonic.ora, .and, .eor, .adc, .sbc, .lda, .txa, .tya, .pla] ∨
      (i.mnemonic ∈ [Mnemonic.asl, .lsr, .rol, .ror] ∧ i.mode = .acc)) ∧
    (t.x ≠ s.x → i.mnemonic ∈ [Mnemonic.ldx, .tax, .tsx, .inx, .dex]) ∧
    (t.y ≠ s.y → i.mnemonic ∈ [Mnemonic.ldy, .tay, .iny, .dey]) ∧
    (t.sp ≠ s.sp → i.mnemonic ∈ [Mnemonic.txs, .pha, .php, .pla, .plp, .jsr, .rts, .brk, .rti]) ∧
    (s.ram.wf = true → ∀ b : Word, t.peek b ≠ s.peek b → i.mnemonic ∈ ramWriters ∧ i.mode ≠ .acc)

/-- 40_addressing.md R124; the lengths are the spec's decision D30, the wrap D13 (assumption 17). -/
def Obligations.PcAdvancesByLengthUnlessControlTransfer : Prop :=
  (∀ (i : Instr) (s : State), i.mnemonic ∉ controlTransfers → ∃ t, exec i s = .next t ∧ PcAfter s t i.mode.length) ∧
  ∀ m : Mode, m.length =
    if m = .imp ∨ m = .acc then 1 else if m = .abs ∨ m = .absx ∨ m = .absy ∨ m = .ind then 3 else 2

/-- 45_stack_control.md R226: every Push and Pull wraps SP mod 256 and stays in the stack page; how many of them each instruction makes is R217 to R222, R224 and R225. The page 0x0100 to 0x01FF is the spec's decision D2 in 10_state.md R21 (assumption 4). -/
def Obligations.PushesStayInTheStackPage : Prop :=
  ∀ (s : State) (target : Word), s.ram.wf = true →
    (∀ i n, (i, n) ∈ [(Instr.pha, 255), (.php, 255), (.jsr target, 254), (.brk, 253)] →
      ∃ t, exec i s = .next t ∧ t.sp.toNat = (s.sp.toNat + n) % 256 ∧
        ∀ b : Word, b.toNat < 0x0100 ∨ 0x01FF < b.toNat → t.peek b = s.peek b) ∧
    (∀ i n, (i, n) ∈ [(Instr.pla, 1), (.plp, 1), (.rts, 2), (.rti, 3)] →
      ∃ t, exec i s = .next t ∧ t.sp.toNat = (s.sp.toNat + n) % 256 ∧ t.ram = s.ram)

/-- 60_exceptions.md R244 and 10_state.md R24: nothing reads I to decide anything; R136 (the spec's decision D6, assumption 14): Decimal is ignored by ADC and SBC. -/
def Obligations.InertFlagsDecideNothing : Prop :=
  ∀ (i : Instr) (s t : State) (q : Byte), i.mnemonic ≠ .php → i.mnemonic ≠ .brk →
    (∀ f ∈ [Flag.carry, .zero, .overflow, .negative], getFlag q f = s.flag f) → exec i s = .next t →
    ∃ t', exec i { s with p := q } = .next t' ∧ t' = { t with p := t'.p } ∧
      ∀ f ∈ [Flag.carry, .zero, .overflow, .negative], t'.flag f = t.flag f

/-- 70_reset_and_hazards.md R284: one step has exactly one outcome, except for the bytes returned by collaborator reads. The queue and the count are the model's (assumption 9). -/
def Obligations.StepWithoutIoReadsIgnoresTheEnvironment : Prop :=
  ∀ (s t : State) (answers : List Byte) (n : Nat), step s = .next t → t.ioIn = s.ioIn → t.ioDraws = s.ioDraws →
    step { s with ioIn := answers, ioDraws := n } = .next { t with ioIn := answers, ioDraws := n }

/-- 70_reset_and_hazards.md R271: that nothing else changes is the spec's decision D19, the banked read D24 (assumptions 19, 20). -/
def Obligations.ResetLoadsPcAndRunOnly : Prop :=
  ∀ s : State, s.hostReset = { s with pc := s.hostReset.pc, run := .running } ∧
    (s.port.getLsbD 1 = true →
      s.hostReset.pc.toNat = (s.params.kernal.read 0x1FFD).toNat * 256 + (s.params.kernal.read 0x1FFC).toNat) ∧
    (s.port.getLsbD 1 = false → s.hostReset.pc.toNat = (s.peek 0xFFFD).toNat * 256 + (s.peek 0xFFFC).toNat)

/-- 70_reset_and_hazards.md R270 and 10_state.md R35. The refusal of a wrong size is the spec's decision D34, that of an illegal table and the form of INIT_RAM as cells over zeros, the model's (assumption 26). -/
def Obligations.ConstructionFromRomBuffers : Prop :=
  ∀ init : Init,
    (init.kernal = none ∨ init.basic = none ∨ init.chargen = none → ∃ e, construct init = .error e) ∧
    ∀ kernal basic chargen, init.kernal = some kernal → init.basic = some basic → init.chargen = some chargen →
      (kernal.length ≠ 8192 ∨ basic.length ≠ 8192 ∨ chargen.length ≠ 4096 → ∃ e, construct init = .error e) ∧
      (kernal.length = 8192 → basic.length = 8192 → chargen.length = 4096 → legalPortAddr init.portAddr = true →
        tableWellFormed init.optable = true →
        ∃ s, construct init = .ok s ∧ s.inv = true ∧ s.run = .running ∧ s.a = init.a ∧ s.x = init.x ∧ s.y = init.y ∧
          s.sp = init.sp ∧ s.flag .unused = true ∧ (∀ f : Flag, f ≠ .unused → s.flag f = getFlag init.p f) ∧
          s.params.portAddr = init.portAddr ∧ s.params.brkVector = init.brkVector ∧ s.params.optable = init.optable ∧
          (∀ b : Word, s.peek b = ((init.ram.reverse.find? (fun cell => cell.1 == b)).map Prod.snd).getD 0) ∧
          (∀ k b, kernal[k]? = some b → s.params.kernal.read k = b) ∧
          (∀ k b, basic[k]? = some b → s.params.basic.read k = b) ∧
          (∀ k b, chargen[k]? = some b → s.params.chargen.read k = b) ∧
          s.pc = (s.readWord 0xFFFC).1 ∧ s.ioIn = [] ∧ s.ioDraws = 0 ∧ s.ioLog = [])

/-- 70_reset_and_hazards.md R276: the two refusals are the spec's decision D22 (assumption 21). -/
def Obligations.LoadProgramCopiesOrRefuses : Prop :=
  ∀ s : State, s.ram.wf = true →
    s.loadProgram [] = .error .malformedProgram ∧ (∀ b, s.loadProgram [b] = .error .malformedProgram) ∧
    ∀ (low high : Byte) (payload : List Byte),
      (65536 < low.toNat + 256 * high.toNat + payload.length →
        s.loadProgram (low :: high :: payload) = .error .loadOverflow) ∧
      (low.toNat + 256 * high.toNat + payload.length ≤ 65536 →
        ∃ t, s.loadProgram (low :: high :: payload) = .ok t ∧ t = { s with ram := t.ram } ∧
          ∀ b : Word, t.peek b =
            if low.toNat + 256 * high.toNat ≤ b.toNat then
              (payload[b.toNat - (low.toNat + 256 * high.toNat)]?).getD (s.peek b)
            else s.peek b)

/-- 20_memory.md R70 (raw access is the spec's decision D23, assumption 21) and 10_state.md R29. -/
def Obligations.PeekAndPokeAreRaw : Prop :=
  (∀ (s : State) (addr b : Word) (v : Byte), s.ram.wf = true →
    (s.poke addr v).peek b = (if b = addr then v else s.peek b) ∧ (s.poke addr v).ram.wf = true ∧
    s.poke addr v = { s with ram := (s.poke addr v).ram }) ∧
  (∀ (s : State) (addr : Word) (bytes : List Byte), s.ram.wf = true →
    s.pokeBytes addr [] = s ∧
    (∀ v : Byte, s.pokeBytes addr (bytes ++ [v]) =
      (s.pokeBytes addr bytes).poke (BitVec.ofNat 16 (addr.toNat + bytes.length)) v) ∧
    (s.pokeBytes addr bytes).ram.wf = true ∧
    s.pokeBytes addr bytes = { s with ram := (s.pokeBytes addr bytes).ram } ∧
    (bytes.length ≤ 65536 → ∀ b : Word, (s.pokeBytes addr bytes).peek b =
      (bytes[(b.toNat + 65536 - addr.toNat) % 65536]?).getD (s.peek b))) ∧
  (∀ (s : State) (r : ByteReg) (v : Byte), (∀ q, (s.setReg r v).getReg q = if q = r then v else s.getReg q) ∧
    s.setReg r v = { s with a := (s.setReg r v).a, x := (s.setReg r v).x, y := (s.setReg r v).y,
                            sp := (s.setReg r v).sp, p := (s.setReg r v).p }) ∧
  (∀ (s : State) (w : Word), s.setPc w = { s with pc := w }) ∧
  ∀ (s : State) (f : Flag) (v : Bool), (∀ g, (s.setFlag f v).flag g = if g = f then v else s.flag g) ∧
    s.setFlag f v = { s with p := (s.setFlag f v).p }

/-- 70_reset_and_hazards.md R274, R275: the form of the budget and the escape is the spec's decision D28 (assumption 21). -/
def Obligations.RunEndsByBudgetEscapeOrHalt : Prop :=
  ∀ (s : State) (start : Word) (n : Nat) (escape : Nat → Bool), s.inv = true →
    (∀ pc opcode, s.run = .halted pc opcode → s.hostRun start n escape = ⟨0, s, .illegal pc opcode⟩) ∧
    (s.run = .running →
      core.run (s.hostRun start n escape).count { s with pc := start } = .next (s.hostRun start n escape).state ∧
      ∀ k, k < (s.hostRun start n escape).count → escape k = false) ∧
    (s.hostRun start n escape).count ≤ n ∧ (s.hostRun start n escape).state.inv = true ∧
    ((s.hostRun start n escape).stop = .budget →
      (s.hostRun start n escape).count = n ∧ (s.hostRun start n escape).state.run = .running) ∧
    ((s.hostRun start n escape).stop = .escape →
      escape (s.hostRun start n escape).count = true ∧ (s.hostRun start n escape).state.run = .running) ∧
    (∀ pc opcode, (s.hostRun start n escape).stop = .illegal pc opcode ↔
      (s.hostRun start n escape).state.run = .halted pc opcode) ∧
    ∀ reason, (s.hostRun start n escape).stop ≠ .refused reason
end

