-- ==== Sys2Proof/Laws/Memory.lean ====
section
/-! SUPPORT. The laws of byte memory: a read after a write, the canonical form kept, and equal reads mean equal memories. -/

namespace Sys2Proof.Machine

@[simp] theorem Memory.read_nil (a : Nat) : Memory.read [] a = Memory.unlisted := rfl

theorem Memory.read_cons (a b : Nat) (v : Byte) (m : Memory) (h : v = Memory.unlisted → m.read a = Memory.unlisted) :
    (Memory.cons a v m).read b = if b = a then v else m.read b := by
  unfold Memory.cons
  by_cases hv : v = Memory.unlisted
  · by_cases hb : b = a
    · subst hb; simp [hv, h hv]
    · simp [hv, hb]
  · simp only [hv, if_false, Memory.read]
    by_cases hb : b = a
    · simp [hb]
    · have : ¬ a = b := fun e => hb e.symm
      simp [hb, this]

/-- In a memory whose listed addresses start at `low`, an address below `low` is not listed. -/
theorem Memory.read_below {size low : Nat} {m : Memory} (h : m.canonicalFrom size low = true) {a : Nat} (ha : a < low) :
    m.read a = Memory.unlisted := by
  induction m generalizing low with
  | nil => rfl
  | cons c rest ih =>
    obtain ⟨k, b⟩ := c
    simp only [Memory.canonicalFrom, Bool.and_eq_true, decide_eq_true_eq] at h
    have hk : k ≠ a := by omega
    simp only [Memory.read, hk, if_false]
    exact ih h.2 (by omega)

/-- In a memory of `size` bytes, an address past the end is not listed. -/
theorem Memory.read_beyond {size low : Nat} {m : Memory} (h : m.canonicalFrom size low = true) {a : Nat} (ha : size ≤ a) :
    m.read a = Memory.unlisted := by
  induction m generalizing low with
  | nil => rfl
  | cons c rest ih =>
    obtain ⟨k, b⟩ := c
    simp only [Memory.canonicalFrom, Bool.and_eq_true, decide_eq_true_eq] at h
    have hk : k ≠ a := by omega
    simp only [Memory.read, hk, if_false]
    exact ih h.2

theorem Memory.canonicalFrom_mono {size low low' : Nat} {m : Memory} (h : m.canonicalFrom size low = true)
    (hl : low' ≤ low) : m.canonicalFrom size low' = true := by
  cases m with
  | nil => rfl
  | cons c rest =>
    obtain ⟨k, b⟩ := c
    simp only [Memory.canonicalFrom, Bool.and_eq_true, decide_eq_true_eq] at h ⊢
    exact ⟨⟨⟨by omega, h.1.1.2⟩, h.1.2⟩, h.2⟩

theorem Memory.canonicalFrom_cons {size low a : Nat} {v : Byte} {m : Memory}
    (h : m.canonicalFrom size (a + 1) = true) (hl : low ≤ a) (hs : a < size) :
    (Memory.cons a v m).canonicalFrom size low = true := by
  unfold Memory.cons
  split
  · exact Memory.canonicalFrom_mono h (by omega)
  · rename_i hv
    simp [Memory.canonicalFrom, hl, hs, hv, h]

theorem Memory.canonicalFrom_write {size low a : Nat} {v : Byte} {m : Memory}
    (h : m.canonicalFrom size low = true) (hl : low ≤ a) (hs : a < size) :
    (m.write a v).canonicalFrom size low = true := by
  induction m generalizing low with
  | nil => exact Memory.canonicalFrom_cons rfl hl hs
  | cons c rest ih =>
    obtain ⟨k, b⟩ := c
    have h' := h
    simp only [Memory.canonicalFrom, Bool.and_eq_true, decide_eq_true_eq] at h
    unfold Memory.write
    split
    · simp only [Memory.canonicalFrom, Bool.and_eq_true, decide_eq_true_eq]
      exact ⟨h.1, ih h.2 (by omega)⟩
    · split
      · rename_i hk
        subst hk
        exact Memory.canonicalFrom_cons h.2 hl hs
      · refine Memory.canonicalFrom_cons ?_ hl hs
        simp only [Memory.canonicalFrom, Bool.and_eq_true, decide_eq_true_eq]
        exact ⟨⟨⟨by omega, h.1.1.2⟩, h.1.2⟩, h.2⟩

/-- Every write inside a memory keeps its canonical form. -/
theorem Memory.canonical_write {size a : Nat} {v : Byte} {m : Memory} (h : m.canonical size = true) (hs : a < size) :
    (m.write a v).canonical size = true :=
  Memory.canonicalFrom_write h (Nat.zero_le a) hs

/-- Every write to RAM at a bus address keeps the canonical form. -/
theorem Memory.wf_write {m : Memory} (h : m.wf = true) (a : Word) (v : Byte) : (m.write a.toNat v).wf = true :=
  Memory.canonical_write h a.isLt

/-- What every address reads after a write. -/
theorem Memory.read_writeFrom {size low : Nat} {m : Memory} (h : m.canonicalFrom size low = true) (a b : Nat) (v : Byte) :
    (m.write a v).read b = if b = a then v else m.read b := by
  induction m generalizing low with
  | nil => exact Memory.read_cons a b v [] (fun _ => rfl)
  | cons c rest ih =>
    obtain ⟨k, w⟩ := c
    simp only [Memory.canonicalFrom, Bool.and_eq_true, decide_eq_true_eq] at h
    unfold Memory.write
    split
    · simp only [Memory.read]
      by_cases hk : k = b
      · have : b ≠ a := by omega
        simp [hk, this]
      · simp only [hk, if_false]
        exact ih h.2
    · split
      · rename_i hk
        subst hk
        rw [Memory.read_cons k b v rest (fun _ => Memory.read_below h.2 (by omega))]
        by_cases hb : b = k
        · simp [hb]
        · have : ¬ k = b := fun e => hb e.symm
          simp [hb, Memory.read, this]
      · refine Memory.read_cons a b v _ (fun _ => ?_)
        have hk : k ≠ a := by omega
        simp only [Memory.read, hk, if_false]
        exact Memory.read_below h.2 (by omega)

/-- What every address of a canonical memory reads after a write. -/
theorem Memory.read_write {size : Nat} {m : Memory} (h : m.canonical size = true) (a b : Nat) (v : Byte) :
    (m.write a v).read b = if b = a then v else m.read b :=
  Memory.read_writeFrom h a b v

/-- Two canonical memories that read the same everywhere are the same list. -/
theorem Memory.eq_of_read {size low : Nat} {m n : Memory} (hm : m.canonicalFrom size low = true)
    (hn : n.canonicalFrom size low = true) (h : ∀ a, m.read a = n.read a) : m = n := by
  induction m generalizing low n with
  | nil =>
    cases n with
    | nil => rfl
    | cons c rest =>
      obtain ⟨k, b⟩ := c
      simp only [Memory.canonicalFrom, Bool.and_eq_true, decide_eq_true_eq] at hn
      have := h k
      simp only [Memory.read, if_true] at this
      exact absurd this.symm hn.1.2
  | cons c rest ih =>
    obtain ⟨k, b⟩ := c
    simp only [Memory.canonicalFrom, Bool.and_eq_true, decide_eq_true_eq] at hm
    cases n with
    | nil =>
      have := h k
      simp only [Memory.read, if_true] at this
      exact absurd this hm.1.2
    | cons d rest' =>
      obtain ⟨j, w⟩ := d
      simp only [Memory.canonicalFrom, Bool.and_eq_true, decide_eq_true_eq] at hn
      have hkj : k = j := by
        rcases Nat.lt_trichotomy k j with hlt | heq | hgt
        · have := h k
          have hj : j ≠ k := by omega
          simp only [Memory.read, if_true, hj, if_false] at this
          rw [Memory.read_below hn.2 (by omega)] at this
          exact absurd this hm.1.2
        · exact heq
        · have := h j
          have hk : k ≠ j := by omega
          simp only [Memory.read, if_true, hk, if_false] at this
          rw [Memory.read_below hm.2 (by omega)] at this
          exact absurd this.symm hn.1.2
      subst hkj
      have hb : b = w := by simpa [Memory.read] using h k
      subst hb
      have hr : rest = rest' := by
        refine ih hm.2 hn.2 (fun a => ?_)
        have ha := h a
        by_cases hk : k = a
        · subst hk
          rw [Memory.read_below hm.2 (by omega), Memory.read_below hn.2 (by omega)]
        · simpa [Memory.read, hk] using ha
      rw [hr]

theorem Memory.canonicalFrom_ofBytes (bytes : List Byte) (start size : Nat) (h : start + bytes.length ≤ size) :
    (Memory.ofBytes start bytes).canonicalFrom size start = true := by
  induction bytes generalizing start with
  | nil => rfl
  | cons b rest ih =>
    simp only [List.length_cons] at h
    exact Memory.canonicalFrom_cons (ih (start + 1) (by omega)) (Nat.le_refl _) (by omega)

theorem Memory.read_ofBytes (bytes : List Byte) (start a : Nat) :
    (Memory.ofBytes start bytes).read a =
      if start ≤ a then (bytes[a - start]?).getD Memory.unlisted else Memory.unlisted := by
  induction bytes generalizing start a with
  | nil => simp [Memory.ofBytes]
  | cons b rest ih =>
    unfold Memory.ofBytes
    rw [Memory.read_cons _ _ _ _ (fun _ => by rw [ih]; simp)]
    rw [ih]
    by_cases h1 : a = start
    · simp [h1]
    · by_cases h2 : start ≤ a
      · have h3 : start + 1 ≤ a := by omega
        have h4 : a - start = (a - (start + 1)) + 1 := by omega
        simp [h1, h2, h3, h4]
      · have h3 : ¬ start + 1 ≤ a := by omega
        simp [h1, h2, h3]

theorem Memory.ofBytes_zeros (n start : Nat) : Memory.ofBytes start (List.replicate n 0) = [] := by
  induction n generalizing start with
  | zero => rfl
  | succ n ih =>
    simp only [List.replicate_succ, Memory.ofBytes, ih]
    rfl

theorem Memory.wf_ofCells (cells : List (Word × Byte)) : (Memory.ofCells cells).wf = true := by
  have key : ∀ (m : Memory), m.wf = true →
      (cells.foldl (fun m (cell : Word × Byte) => m.write cell.1.toNat cell.2) m).wf = true := by
    induction cells with
    | nil => exact fun _ h => h
    | cons c rest ih => exact fun m h => ih _ (Memory.wf_write h c.1 c.2)
  exact key [] rfl

/-- A memory made from cells reads, at each address, the last cell listed for it. -/
theorem Memory.read_ofCells (cells : List (Word × Byte)) (b : Word) :
    (Memory.ofCells cells).read b.toNat =
      ((cells.reverse.find? (fun cell => cell.1 == b)).map Prod.snd).getD Memory.unlisted := by
  induction cells using List.reverseRecOn with
  | nil => rfl
  | append_singleton rest c ih =>
    have h : Memory.ofCells (rest ++ [c]) = (Memory.ofCells rest).write c.1.toNat c.2 := by simp [Memory.ofCells]
    rw [h, Memory.read_write (Memory.wf_ofCells rest), ih, List.reverse_append, List.reverse_singleton,
      List.singleton_append, List.find?_cons]
    by_cases hc : b = c.1
    · simp [hc]
    · have hn : b.toNat ≠ c.1.toNat := fun e => hc (BitVec.eq_of_toNat_eq e)
      simp [hn, beq_eq_false_iff_ne.2 (Ne.symm hc)]

end Sys2Proof.Machine
end

