-- ==== Sys2Proof/Laws/State.lean ====
section
/-! SUPPORT. One lemma per field per update of the state, true by rfl, so that no later proof unfolds a record update. -/

namespace Sys2Proof.Machine

section
variable (v : Byte) (s : State)
@[simp] theorem State.setA_a : (s.setA v).a = v := rfl
@[simp] theorem State.setA_x : (s.setA v).x = s.x := rfl
@[simp] theorem State.setA_y : (s.setA v).y = s.y := rfl
@[simp] theorem State.setA_sp : (s.setA v).sp = s.sp := rfl
@[simp] theorem State.setA_pc : (s.setA v).pc = s.pc := rfl
@[simp] theorem State.setA_p : (s.setA v).p = s.p := rfl
@[simp] theorem State.setA_ram : (s.setA v).ram = s.ram := rfl
@[simp] theorem State.setA_run : (s.setA v).run = s.run := rfl
@[simp] theorem State.setA_params : (s.setA v).params = s.params := rfl
@[simp] theorem State.setA_ioIn : (s.setA v).ioIn = s.ioIn := rfl
@[simp] theorem State.setA_ioDraws : (s.setA v).ioDraws = s.ioDraws := rfl
@[simp] theorem State.setA_ioLog : (s.setA v).ioLog = s.ioLog := rfl
@[simp] theorem State.setA_flag (f : Flag) : (s.setA v).flag f = s.flag f := rfl
@[simp] theorem State.setA_peek (addr : Word) : (s.setA v).peek addr = s.peek addr := rfl
@[simp] theorem State.setA_port : (s.setA v).port = s.port := rfl
@[simp] theorem State.setA_bank (addr : Word) : (s.setA v).bank addr = s.bank addr := rfl
end

section
variable (v : Byte) (s : State)
@[simp] theorem State.setX_a : (s.setX v).a = s.a := rfl
@[simp] theorem State.setX_x : (s.setX v).x = v := rfl
@[simp] theorem State.setX_y : (s.setX v).y = s.y := rfl
@[simp] theorem State.setX_sp : (s.setX v).sp = s.sp := rfl
@[simp] theorem State.setX_pc : (s.setX v).pc = s.pc := rfl
@[simp] theorem State.setX_p : (s.setX v).p = s.p := rfl
@[simp] theorem State.setX_ram : (s.setX v).ram = s.ram := rfl
@[simp] theorem State.setX_run : (s.setX v).run = s.run := rfl
@[simp] theorem State.setX_params : (s.setX v).params = s.params := rfl
@[simp] theorem State.setX_ioIn : (s.setX v).ioIn = s.ioIn := rfl
@[simp] theorem State.setX_ioDraws : (s.setX v).ioDraws = s.ioDraws := rfl
@[simp] theorem State.setX_ioLog : (s.setX v).ioLog = s.ioLog := rfl
@[simp] theorem State.setX_flag (f : Flag) : (s.setX v).flag f = s.flag f := rfl
@[simp] theorem State.setX_peek (addr : Word) : (s.setX v).peek addr = s.peek addr := rfl
@[simp] theorem State.setX_port : (s.setX v).port = s.port := rfl
@[simp] theorem State.setX_bank (addr : Word) : (s.setX v).bank addr = s.bank addr := rfl
end

section
variable (v : Byte) (s : State)
@[simp] theorem State.setY_a : (s.setY v).a = s.a := rfl
@[simp] theorem State.setY_x : (s.setY v).x = s.x := rfl
@[simp] theorem State.setY_y : (s.setY v).y = v := rfl
@[simp] theorem State.setY_sp : (s.setY v).sp = s.sp := rfl
@[simp] theorem State.setY_pc : (s.setY v).pc = s.pc := rfl
@[simp] theorem State.setY_p : (s.setY v).p = s.p := rfl
@[simp] theorem State.setY_ram : (s.setY v).ram = s.ram := rfl
@[simp] theorem State.setY_run : (s.setY v).run = s.run := rfl
@[simp] theorem State.setY_params : (s.setY v).params = s.params := rfl
@[simp] theorem State.setY_ioIn : (s.setY v).ioIn = s.ioIn := rfl
@[simp] theorem State.setY_ioDraws : (s.setY v).ioDraws = s.ioDraws := rfl
@[simp] theorem State.setY_ioLog : (s.setY v).ioLog = s.ioLog := rfl
@[simp] theorem State.setY_flag (f : Flag) : (s.setY v).flag f = s.flag f := rfl
@[simp] theorem State.setY_peek (addr : Word) : (s.setY v).peek addr = s.peek addr := rfl
@[simp] theorem State.setY_port : (s.setY v).port = s.port := rfl
@[simp] theorem State.setY_bank (addr : Word) : (s.setY v).bank addr = s.bank addr := rfl
end

section
variable (v : Byte) (s : State)
@[simp] theorem State.setSp_a : (s.setSp v).a = s.a := rfl
@[simp] theorem State.setSp_x : (s.setSp v).x = s.x := rfl
@[simp] theorem State.setSp_y : (s.setSp v).y = s.y := rfl
@[simp] theorem State.setSp_sp : (s.setSp v).sp = v := rfl
@[simp] theorem State.setSp_pc : (s.setSp v).pc = s.pc := rfl
@[simp] theorem State.setSp_p : (s.setSp v).p = s.p := rfl
@[simp] theorem State.setSp_ram : (s.setSp v).ram = s.ram := rfl
@[simp] theorem State.setSp_run : (s.setSp v).run = s.run := rfl
@[simp] theorem State.setSp_params : (s.setSp v).params = s.params := rfl
@[simp] theorem State.setSp_ioIn : (s.setSp v).ioIn = s.ioIn := rfl
@[simp] theorem State.setSp_ioDraws : (s.setSp v).ioDraws = s.ioDraws := rfl
@[simp] theorem State.setSp_ioLog : (s.setSp v).ioLog = s.ioLog := rfl
@[simp] theorem State.setSp_flag (f : Flag) : (s.setSp v).flag f = s.flag f := rfl
@[simp] theorem State.setSp_peek (addr : Word) : (s.setSp v).peek addr = s.peek addr := rfl
@[simp] theorem State.setSp_port : (s.setSp v).port = s.port := rfl
@[simp] theorem State.setSp_bank (addr : Word) : (s.setSp v).bank addr = s.bank addr := rfl
end

section
variable (v : Word) (s : State)
@[simp] theorem State.setPc_a : (s.setPc v).a = s.a := rfl
@[simp] theorem State.setPc_x : (s.setPc v).x = s.x := rfl
@[simp] theorem State.setPc_y : (s.setPc v).y = s.y := rfl
@[simp] theorem State.setPc_sp : (s.setPc v).sp = s.sp := rfl
@[simp] theorem State.setPc_pc : (s.setPc v).pc = v := rfl
@[simp] theorem State.setPc_p : (s.setPc v).p = s.p := rfl
@[simp] theorem State.setPc_ram : (s.setPc v).ram = s.ram := rfl
@[simp] theorem State.setPc_run : (s.setPc v).run = s.run := rfl
@[simp] theorem State.setPc_params : (s.setPc v).params = s.params := rfl
@[simp] theorem State.setPc_ioIn : (s.setPc v).ioIn = s.ioIn := rfl
@[simp] theorem State.setPc_ioDraws : (s.setPc v).ioDraws = s.ioDraws := rfl
@[simp] theorem State.setPc_ioLog : (s.setPc v).ioLog = s.ioLog := rfl
@[simp] theorem State.setPc_flag (f : Flag) : (s.setPc v).flag f = s.flag f := rfl
@[simp] theorem State.setPc_peek (addr : Word) : (s.setPc v).peek addr = s.peek addr := rfl
@[simp] theorem State.setPc_port : (s.setPc v).port = s.port := rfl
@[simp] theorem State.setPc_bank (addr : Word) : (s.setPc v).bank addr = s.bank addr := rfl
end

section
variable (v : Byte) (s : State)
@[simp] theorem State.setP_a : (s.setP v).a = s.a := rfl
@[simp] theorem State.setP_x : (s.setP v).x = s.x := rfl
@[simp] theorem State.setP_y : (s.setP v).y = s.y := rfl
@[simp] theorem State.setP_sp : (s.setP v).sp = s.sp := rfl
@[simp] theorem State.setP_pc : (s.setP v).pc = s.pc := rfl
@[simp] theorem State.setP_p : (s.setP v).p = v := rfl
@[simp] theorem State.setP_ram : (s.setP v).ram = s.ram := rfl
@[simp] theorem State.setP_run : (s.setP v).run = s.run := rfl
@[simp] theorem State.setP_params : (s.setP v).params = s.params := rfl
@[simp] theorem State.setP_ioIn : (s.setP v).ioIn = s.ioIn := rfl
@[simp] theorem State.setP_ioDraws : (s.setP v).ioDraws = s.ioDraws := rfl
@[simp] theorem State.setP_ioLog : (s.setP v).ioLog = s.ioLog := rfl
@[simp] theorem State.setP_peek (addr : Word) : (s.setP v).peek addr = s.peek addr := rfl
@[simp] theorem State.setP_port : (s.setP v).port = s.port := rfl
@[simp] theorem State.setP_bank (addr : Word) : (s.setP v).bank addr = s.bank addr := rfl
end

section
variable (v : Memory) (s : State)
@[simp] theorem State.setRam_a : (s.setRam v).a = s.a := rfl
@[simp] theorem State.setRam_x : (s.setRam v).x = s.x := rfl
@[simp] theorem State.setRam_y : (s.setRam v).y = s.y := rfl
@[simp] theorem State.setRam_sp : (s.setRam v).sp = s.sp := rfl
@[simp] theorem State.setRam_pc : (s.setRam v).pc = s.pc := rfl
@[simp] theorem State.setRam_p : (s.setRam v).p = s.p := rfl
@[simp] theorem State.setRam_ram : (s.setRam v).ram = v := rfl
@[simp] theorem State.setRam_run : (s.setRam v).run = s.run := rfl
@[simp] theorem State.setRam_params : (s.setRam v).params = s.params := rfl
@[simp] theorem State.setRam_ioIn : (s.setRam v).ioIn = s.ioIn := rfl
@[simp] theorem State.setRam_ioDraws : (s.setRam v).ioDraws = s.ioDraws := rfl
@[simp] theorem State.setRam_ioLog : (s.setRam v).ioLog = s.ioLog := rfl
end

section
variable (v : RunStatus) (s : State)
@[simp] theorem State.setRun_a : (s.setRun v).a = s.a := rfl
@[simp] theorem State.setRun_x : (s.setRun v).x = s.x := rfl
@[simp] theorem State.setRun_y : (s.setRun v).y = s.y := rfl
@[simp] theorem State.setRun_sp : (s.setRun v).sp = s.sp := rfl
@[simp] theorem State.setRun_pc : (s.setRun v).pc = s.pc := rfl
@[simp] theorem State.setRun_p : (s.setRun v).p = s.p := rfl
@[simp] theorem State.setRun_ram : (s.setRun v).ram = s.ram := rfl
@[simp] theorem State.setRun_run : (s.setRun v).run = v := rfl
@[simp] theorem State.setRun_params : (s.setRun v).params = s.params := rfl
@[simp] theorem State.setRun_ioIn : (s.setRun v).ioIn = s.ioIn := rfl
@[simp] theorem State.setRun_ioDraws : (s.setRun v).ioDraws = s.ioDraws := rfl
@[simp] theorem State.setRun_ioLog : (s.setRun v).ioLog = s.ioLog := rfl
@[simp] theorem State.setRun_flag (f : Flag) : (s.setRun v).flag f = s.flag f := rfl
@[simp] theorem State.setRun_peek (addr : Word) : (s.setRun v).peek addr = s.peek addr := rfl
@[simp] theorem State.setRun_port : (s.setRun v).port = s.port := rfl
@[simp] theorem State.setRun_bank (addr : Word) : (s.setRun v).bank addr = s.bank addr := rfl
end

section
variable (v : Params) (s : State)
@[simp] theorem State.setParams_a : (s.setParams v).a = s.a := rfl
@[simp] theorem State.setParams_x : (s.setParams v).x = s.x := rfl
@[simp] theorem State.setParams_y : (s.setParams v).y = s.y := rfl
@[simp] theorem State.setParams_sp : (s.setParams v).sp = s.sp := rfl
@[simp] theorem State.setParams_pc : (s.setParams v).pc = s.pc := rfl
@[simp] theorem State.setParams_p : (s.setParams v).p = s.p := rfl
@[simp] theorem State.setParams_ram : (s.setParams v).ram = s.ram := rfl
@[simp] theorem State.setParams_run : (s.setParams v).run = s.run := rfl
@[simp] theorem State.setParams_params : (s.setParams v).params = v := rfl
@[simp] theorem State.setParams_ioIn : (s.setParams v).ioIn = s.ioIn := rfl
@[simp] theorem State.setParams_ioDraws : (s.setParams v).ioDraws = s.ioDraws := rfl
@[simp] theorem State.setParams_ioLog : (s.setParams v).ioLog = s.ioLog := rfl
@[simp] theorem State.setParams_flag (f : Flag) : (s.setParams v).flag f = s.flag f := rfl
@[simp] theorem State.setParams_peek (addr : Word) : (s.setParams v).peek addr = s.peek addr := rfl
end

section
variable (v : List Byte) (s : State)
@[simp] theorem State.setIoIn_a : (s.setIoIn v).a = s.a := rfl
@[simp] theorem State.setIoIn_x : (s.setIoIn v).x = s.x := rfl
@[simp] theorem State.setIoIn_y : (s.setIoIn v).y = s.y := rfl
@[simp] theorem State.setIoIn_sp : (s.setIoIn v).sp = s.sp := rfl
@[simp] theorem State.setIoIn_pc : (s.setIoIn v).pc = s.pc := rfl
@[simp] theorem State.setIoIn_p : (s.setIoIn v).p = s.p := rfl
@[simp] theorem State.setIoIn_ram : (s.setIoIn v).ram = s.ram := rfl
@[simp] theorem State.setIoIn_run : (s.setIoIn v).run = s.run := rfl
@[simp] theorem State.setIoIn_params : (s.setIoIn v).params = s.params := rfl
@[simp] theorem State.setIoIn_ioIn : (s.setIoIn v).ioIn = v := rfl
@[simp] theorem State.setIoIn_ioDraws : (s.setIoIn v).ioDraws = s.ioDraws := rfl
@[simp] theorem State.setIoIn_ioLog : (s.setIoIn v).ioLog = s.ioLog := rfl
@[simp] theorem State.setIoIn_flag (f : Flag) : (s.setIoIn v).flag f = s.flag f := rfl
@[simp] theorem State.setIoIn_peek (addr : Word) : (s.setIoIn v).peek addr = s.peek addr := rfl
@[simp] theorem State.setIoIn_port : (s.setIoIn v).port = s.port := rfl
@[simp] theorem State.setIoIn_bank (addr : Word) : (s.setIoIn v).bank addr = s.bank addr := rfl
end

section
variable (v : Nat) (s : State)
@[simp] theorem State.setIoDraws_a : (s.setIoDraws v).a = s.a := rfl
@[simp] theorem State.setIoDraws_x : (s.setIoDraws v).x = s.x := rfl
@[simp] theorem State.setIoDraws_y : (s.setIoDraws v).y = s.y := rfl
@[simp] theorem State.setIoDraws_sp : (s.setIoDraws v).sp = s.sp := rfl
@[simp] theorem State.setIoDraws_pc : (s.setIoDraws v).pc = s.pc := rfl
@[simp] theorem State.setIoDraws_p : (s.setIoDraws v).p = s.p := rfl
@[simp] theorem State.setIoDraws_ram : (s.setIoDraws v).ram = s.ram := rfl
@[simp] theorem State.setIoDraws_run : (s.setIoDraws v).run = s.run := rfl
@[simp] theorem State.setIoDraws_params : (s.setIoDraws v).params = s.params := rfl
@[simp] theorem State.setIoDraws_ioIn : (s.setIoDraws v).ioIn = s.ioIn := rfl
@[simp] theorem State.setIoDraws_ioDraws : (s.setIoDraws v).ioDraws = v := rfl
@[simp] theorem State.setIoDraws_ioLog : (s.setIoDraws v).ioLog = s.ioLog := rfl
@[simp] theorem State.setIoDraws_flag (f : Flag) : (s.setIoDraws v).flag f = s.flag f := rfl
@[simp] theorem State.setIoDraws_peek (addr : Word) : (s.setIoDraws v).peek addr = s.peek addr := rfl
@[simp] theorem State.setIoDraws_port : (s.setIoDraws v).port = s.port := rfl
@[simp] theorem State.setIoDraws_bank (addr : Word) : (s.setIoDraws v).bank addr = s.bank addr := rfl
end

section
variable (v : List IoEvent) (s : State)
@[simp] theorem State.setIoLog_a : (s.setIoLog v).a = s.a := rfl
@[simp] theorem State.setIoLog_x : (s.setIoLog v).x = s.x := rfl
@[simp] theorem State.setIoLog_y : (s.setIoLog v).y = s.y := rfl
@[simp] theorem State.setIoLog_sp : (s.setIoLog v).sp = s.sp := rfl
@[simp] theorem State.setIoLog_pc : (s.setIoLog v).pc = s.pc := rfl
@[simp] theorem State.setIoLog_p : (s.setIoLog v).p = s.p := rfl
@[simp] theorem State.setIoLog_ram : (s.setIoLog v).ram = s.ram := rfl
@[simp] theorem State.setIoLog_run : (s.setIoLog v).run = s.run := rfl
@[simp] theorem State.setIoLog_params : (s.setIoLog v).params = s.params := rfl
@[simp] theorem State.setIoLog_ioIn : (s.setIoLog v).ioIn = s.ioIn := rfl
@[simp] theorem State.setIoLog_ioDraws : (s.setIoLog v).ioDraws = s.ioDraws := rfl
@[simp] theorem State.setIoLog_ioLog : (s.setIoLog v).ioLog = v := rfl
@[simp] theorem State.setIoLog_flag (f : Flag) : (s.setIoLog v).flag f = s.flag f := rfl
@[simp] theorem State.setIoLog_peek (addr : Word) : (s.setIoLog v).peek addr = s.peek addr := rfl
@[simp] theorem State.setIoLog_port : (s.setIoLog v).port = s.port := rfl
@[simp] theorem State.setIoLog_bank (addr : Word) : (s.setIoLog v).bank addr = s.bank addr := rfl
end

/-- A state is its fields: `{ s with p := … }` back to itself. -/
@[simp] theorem State.setP_self (s : State) : s.setP s.p = s := rfl

@[simp] theorem State.setFlag_p (f : Flag) (v : Bool) (s : State) :
    (s.setFlag f v).p = Machine.setFlag f v s.p := rfl

@[simp] theorem State.setNZ_p (b : Byte) (s : State) : (s.setNZ b).p = deriveNZ b s.p := rfl

@[simp] theorem State.advance_pc (n : Nat) (s : State) : (s.advance n).pc = s.pc + BitVec.ofNat 16 n := rfl

@[simp] theorem State.setFlag_a (f : Flag) (v : Bool) (s : State) : (s.setFlag f v).a = s.a := rfl
@[simp] theorem State.setFlag_x (f : Flag) (v : Bool) (s : State) : (s.setFlag f v).x = s.x := rfl
@[simp] theorem State.setFlag_y (f : Flag) (v : Bool) (s : State) : (s.setFlag f v).y = s.y := rfl
@[simp] theorem State.setFlag_sp (f : Flag) (v : Bool) (s : State) : (s.setFlag f v).sp = s.sp := rfl
@[simp] theorem State.setFlag_pc (f : Flag) (v : Bool) (s : State) : (s.setFlag f v).pc = s.pc := rfl
@[simp] theorem State.setFlag_ram (f : Flag) (v : Bool) (s : State) : (s.setFlag f v).ram = s.ram := rfl
@[simp] theorem State.setFlag_run (f : Flag) (v : Bool) (s : State) : (s.setFlag f v).run = s.run := rfl
@[simp] theorem State.setFlag_params (f : Flag) (v : Bool) (s : State) : (s.setFlag f v).params = s.params := rfl
@[simp] theorem State.setFlag_ioIn (f : Flag) (v : Bool) (s : State) : (s.setFlag f v).ioIn = s.ioIn := rfl
@[simp] theorem State.setFlag_ioDraws (f : Flag) (v : Bool) (s : State) : (s.setFlag f v).ioDraws = s.ioDraws := rfl
@[simp] theorem State.setFlag_ioLog (f : Flag) (v : Bool) (s : State) : (s.setFlag f v).ioLog = s.ioLog := rfl

@[simp] theorem State.setNZ_a (b : Byte) (s : State) : (s.setNZ b).a = s.a := rfl
@[simp] theorem State.setNZ_x (b : Byte) (s : State) : (s.setNZ b).x = s.x := rfl
@[simp] theorem State.setNZ_y (b : Byte) (s : State) : (s.setNZ b).y = s.y := rfl
@[simp] theorem State.setNZ_sp (b : Byte) (s : State) : (s.setNZ b).sp = s.sp := rfl
@[simp] theorem State.setNZ_pc (b : Byte) (s : State) : (s.setNZ b).pc = s.pc := rfl
@[simp] theorem State.setNZ_ram (b : Byte) (s : State) : (s.setNZ b).ram = s.ram := rfl
@[simp] theorem State.setNZ_run (b : Byte) (s : State) : (s.setNZ b).run = s.run := rfl
@[simp] theorem State.setNZ_params (b : Byte) (s : State) : (s.setNZ b).params = s.params := rfl
@[simp] theorem State.setNZ_ioIn (b : Byte) (s : State) : (s.setNZ b).ioIn = s.ioIn := rfl
@[simp] theorem State.setNZ_ioDraws (b : Byte) (s : State) : (s.setNZ b).ioDraws = s.ioDraws := rfl
@[simp] theorem State.setNZ_ioLog (b : Byte) (s : State) : (s.setNZ b).ioLog = s.ioLog := rfl

@[simp] theorem State.advance_a (n : Nat) (s : State) : (s.advance n).a = s.a := rfl
@[simp] theorem State.advance_x (n : Nat) (s : State) : (s.advance n).x = s.x := rfl
@[simp] theorem State.advance_y (n : Nat) (s : State) : (s.advance n).y = s.y := rfl
@[simp] theorem State.advance_sp (n : Nat) (s : State) : (s.advance n).sp = s.sp := rfl
@[simp] theorem State.advance_p (n : Nat) (s : State) : (s.advance n).p = s.p := rfl
@[simp] theorem State.advance_ram (n : Nat) (s : State) : (s.advance n).ram = s.ram := rfl
@[simp] theorem State.advance_run (n : Nat) (s : State) : (s.advance n).run = s.run := rfl
@[simp] theorem State.advance_params (n : Nat) (s : State) : (s.advance n).params = s.params := rfl
@[simp] theorem State.advance_ioIn (n : Nat) (s : State) : (s.advance n).ioIn = s.ioIn := rfl
@[simp] theorem State.advance_ioDraws (n : Nat) (s : State) : (s.advance n).ioDraws = s.ioDraws := rfl
@[simp] theorem State.advance_ioLog (n : Nat) (s : State) : (s.advance n).ioLog = s.ioLog := rfl

@[simp] theorem State.poke_a (addr : Word) (v : Byte) (s : State) : (s.poke addr v).a = s.a := rfl
@[simp] theorem State.poke_x (addr : Word) (v : Byte) (s : State) : (s.poke addr v).x = s.x := rfl
@[simp] theorem State.poke_y (addr : Word) (v : Byte) (s : State) : (s.poke addr v).y = s.y := rfl
@[simp] theorem State.poke_sp (addr : Word) (v : Byte) (s : State) : (s.poke addr v).sp = s.sp := rfl
@[simp] theorem State.poke_pc (addr : Word) (v : Byte) (s : State) : (s.poke addr v).pc = s.pc := rfl
@[simp] theorem State.poke_p (addr : Word) (v : Byte) (s : State) : (s.poke addr v).p = s.p := rfl
@[simp] theorem State.poke_run (addr : Word) (v : Byte) (s : State) : (s.poke addr v).run = s.run := rfl
@[simp] theorem State.poke_params (addr : Word) (v : Byte) (s : State) : (s.poke addr v).params = s.params := rfl
@[simp] theorem State.poke_ioIn (addr : Word) (v : Byte) (s : State) : (s.poke addr v).ioIn = s.ioIn := rfl
@[simp] theorem State.poke_ioDraws (addr : Word) (v : Byte) (s : State) : (s.poke addr v).ioDraws = s.ioDraws := rfl
@[simp] theorem State.poke_ioLog (addr : Word) (v : Byte) (s : State) : (s.poke addr v).ioLog = s.ioLog := rfl

@[simp] theorem State.poke_ram (addr : Word) (v : Byte) (s : State) :
    (s.poke addr v).ram = s.ram.write addr.toNat v := rfl

end Sys2Proof.Machine
end

