-- ==== Sys2Proof/Laws/Bus.lean ====
section
/-! SUPPORT. What the bus operations can do: a read changes nothing but the record of the environment; a write changes one
RAM byte or that record; the stack page and page zero are always RAM. One lemma per field, so that no proof unfolds them. -/

namespace Sys2Proof.Machine

/-! ## A read leaves the core's own state alone -/

@[simp] theorem State.ioAnswer_a (s : State) : s.ioAnswer.2.a = s.a := by
  unfold State.ioAnswer; split <;> rfl
@[simp] theorem State.ioAnswer_x (s : State) : s.ioAnswer.2.x = s.x := by
  unfold State.ioAnswer; split <;> rfl
@[simp] theorem State.ioAnswer_y (s : State) : s.ioAnswer.2.y = s.y := by
  unfold State.ioAnswer; split <;> rfl
@[simp] theorem State.ioAnswer_sp (s : State) : s.ioAnswer.2.sp = s.sp := by
  unfold State.ioAnswer; split <;> rfl
@[simp] theorem State.ioAnswer_pc (s : State) : s.ioAnswer.2.pc = s.pc := by
  unfold State.ioAnswer; split <;> rfl
@[simp] theorem State.ioAnswer_p (s : State) : s.ioAnswer.2.p = s.p := by
  unfold State.ioAnswer; split <;> rfl
@[simp] theorem State.ioAnswer_ram (s : State) : s.ioAnswer.2.ram = s.ram := by
  unfold State.ioAnswer; split <;> rfl
@[simp] theorem State.ioAnswer_run (s : State) : s.ioAnswer.2.run = s.run := by
  unfold State.ioAnswer; split <;> rfl
@[simp] theorem State.ioAnswer_params (s : State) : s.ioAnswer.2.params = s.params := by
  unfold State.ioAnswer; split <;> rfl
@[simp] theorem State.ioAnswer_peek (s : State) (b : Word) : s.ioAnswer.2.peek b = s.peek b := by simp [State.peek]
@[simp] theorem State.ioAnswer_flag (s : State) (f : Flag) : s.ioAnswer.2.flag f = s.flag f := by simp [State.flag]
@[simp] theorem State.ioAnswer_port (s : State) : s.ioAnswer.2.port = s.port := by simp [State.port]
@[simp] theorem State.ioAnswer_bank (s : State) (b : Word) : s.ioAnswer.2.bank b = s.bank b := by simp [State.bank]

@[simp] theorem State.ioRead_a (s : State) (addr : Word) : (s.ioRead addr).2.a = s.a := by
  simp [State.ioRead]
@[simp] theorem State.ioRead_x (s : State) (addr : Word) : (s.ioRead addr).2.x = s.x := by
  simp [State.ioRead]
@[simp] theorem State.ioRead_y (s : State) (addr : Word) : (s.ioRead addr).2.y = s.y := by
  simp [State.ioRead]
@[simp] theorem State.ioRead_sp (s : State) (addr : Word) : (s.ioRead addr).2.sp = s.sp := by
  simp [State.ioRead]
@[simp] theorem State.ioRead_pc (s : State) (addr : Word) : (s.ioRead addr).2.pc = s.pc := by
  simp [State.ioRead]
@[simp] theorem State.ioRead_p (s : State) (addr : Word) : (s.ioRead addr).2.p = s.p := by
  simp [State.ioRead]
@[simp] theorem State.ioRead_ram (s : State) (addr : Word) : (s.ioRead addr).2.ram = s.ram := by
  simp [State.ioRead]
@[simp] theorem State.ioRead_run (s : State) (addr : Word) : (s.ioRead addr).2.run = s.run := by
  simp [State.ioRead]
@[simp] theorem State.ioRead_params (s : State) (addr : Word) : (s.ioRead addr).2.params = s.params := by
  simp [State.ioRead]
@[simp] theorem State.ioRead_peek (s : State) (addr : Word) (b : Word) : (s.ioRead addr).2.peek b = s.peek b := by simp [State.peek]
@[simp] theorem State.ioRead_flag (s : State) (addr : Word) (f : Flag) : (s.ioRead addr).2.flag f = s.flag f := by simp [State.flag]
@[simp] theorem State.ioRead_port (s : State) (addr : Word) : (s.ioRead addr).2.port = s.port := by simp [State.port]
@[simp] theorem State.ioRead_bank (s : State) (addr : Word) (b : Word) : (s.ioRead addr).2.bank b = s.bank b := by simp [State.bank]

@[simp] theorem State.busRead_a (s : State) (addr : Word) : (s.busRead addr).2.a = s.a := by
  unfold State.busRead; split <;> simp
@[simp] theorem State.busRead_x (s : State) (addr : Word) : (s.busRead addr).2.x = s.x := by
  unfold State.busRead; split <;> simp
@[simp] theorem State.busRead_y (s : State) (addr : Word) : (s.busRead addr).2.y = s.y := by
  unfold State.busRead; split <;> simp
@[simp] theorem State.busRead_sp (s : State) (addr : Word) : (s.busRead addr).2.sp = s.sp := by
  unfold State.busRead; split <;> simp
@[simp] theorem State.busRead_pc (s : State) (addr : Word) : (s.busRead addr).2.pc = s.pc := by
  unfold State.busRead; split <;> simp
@[simp] theorem State.busRead_p (s : State) (addr : Word) : (s.busRead addr).2.p = s.p := by
  unfold State.busRead; split <;> simp
@[simp] theorem State.busRead_ram (s : State) (addr : Word) : (s.busRead addr).2.ram = s.ram := by
  unfold State.busRead; split <;> simp
@[simp] theorem State.busRead_run (s : State) (addr : Word) : (s.busRead addr).2.run = s.run := by
  unfold State.busRead; split <;> simp
@[simp] theorem State.busRead_params (s : State) (addr : Word) : (s.busRead addr).2.params = s.params := by
  unfold State.busRead; split <;> simp
@[simp] theorem State.busRead_peek (s : State) (addr : Word) (b : Word) : (s.busRead addr).2.peek b = s.peek b := by simp [State.peek]
@[simp] theorem State.busRead_flag (s : State) (addr : Word) (f : Flag) : (s.busRead addr).2.flag f = s.flag f := by simp [State.flag]
@[simp] theorem State.busRead_port (s : State) (addr : Word) : (s.busRead addr).2.port = s.port := by simp [State.port]
@[simp] theorem State.busRead_bank (s : State) (addr : Word) (b : Word) : (s.busRead addr).2.bank b = s.bank b := by simp [State.bank]

@[simp] theorem State.readWord_a (s : State) (addr : Word) : (s.readWord addr).2.a = s.a := by
  simp [State.readWord]
@[simp] theorem State.readWord_x (s : State) (addr : Word) : (s.readWord addr).2.x = s.x := by
  simp [State.readWord]
@[simp] theorem State.readWord_y (s : State) (addr : Word) : (s.readWord addr).2.y = s.y := by
  simp [State.readWord]
@[simp] theorem State.readWord_sp (s : State) (addr : Word) : (s.readWord addr).2.sp = s.sp := by
  simp [State.readWord]
@[simp] theorem State.readWord_pc (s : State) (addr : Word) : (s.readWord addr).2.pc = s.pc := by
  simp [State.readWord]
@[simp] theorem State.readWord_p (s : State) (addr : Word) : (s.readWord addr).2.p = s.p := by
  simp [State.readWord]
@[simp] theorem State.readWord_ram (s : State) (addr : Word) : (s.readWord addr).2.ram = s.ram := by
  simp [State.readWord]
@[simp] theorem State.readWord_run (s : State) (addr : Word) : (s.readWord addr).2.run = s.run := by
  simp [State.readWord]
@[simp] theorem State.readWord_params (s : State) (addr : Word) : (s.readWord addr).2.params = s.params := by
  simp [State.readWord]
@[simp] theorem State.readWord_peek (s : State) (addr : Word) (b : Word) : (s.readWord addr).2.peek b = s.peek b := by simp [State.peek]
@[simp] theorem State.readWord_flag (s : State) (addr : Word) (f : Flag) : (s.readWord addr).2.flag f = s.flag f := by simp [State.flag]
@[simp] theorem State.readWord_port (s : State) (addr : Word) : (s.readWord addr).2.port = s.port := by simp [State.port]
@[simp] theorem State.readWord_bank (s : State) (addr : Word) (b : Word) : (s.readWord addr).2.bank b = s.bank b := by simp [State.bank]

@[simp] theorem Loc.load_a (loc : Loc) (s : State) : (loc.load s).2.a = s.a := by
  cases loc <;> simp [Loc.load]
@[simp] theorem Loc.load_x (loc : Loc) (s : State) : (loc.load s).2.x = s.x := by
  cases loc <;> simp [Loc.load]
@[simp] theorem Loc.load_y (loc : Loc) (s : State) : (loc.load s).2.y = s.y := by
  cases loc <;> simp [Loc.load]
@[simp] theorem Loc.load_sp (loc : Loc) (s : State) : (loc.load s).2.sp = s.sp := by
  cases loc <;> simp [Loc.load]
@[simp] theorem Loc.load_pc (loc : Loc) (s : State) : (loc.load s).2.pc = s.pc := by
  cases loc <;> simp [Loc.load]
@[simp] theorem Loc.load_p (loc : Loc) (s : State) : (loc.load s).2.p = s.p := by
  cases loc <;> simp [Loc.load]
@[simp] theorem Loc.load_ram (loc : Loc) (s : State) : (loc.load s).2.ram = s.ram := by
  cases loc <;> simp [Loc.load]
@[simp] theorem Loc.load_run (loc : Loc) (s : State) : (loc.load s).2.run = s.run := by
  cases loc <;> simp [Loc.load]
@[simp] theorem Loc.load_params (loc : Loc) (s : State) : (loc.load s).2.params = s.params := by
  cases loc <;> simp [Loc.load]
@[simp] theorem Loc.load_peek (loc : Loc) (s : State) (b : Word) : (loc.load s).2.peek b = s.peek b := by simp [State.peek]
@[simp] theorem Loc.load_flag (loc : Loc) (s : State) (f : Flag) : (loc.load s).2.flag f = s.flag f := by simp [State.flag]
@[simp] theorem Loc.load_port (loc : Loc) (s : State) : (loc.load s).2.port = s.port := by simp [State.port]
@[simp] theorem Loc.load_bank (loc : Loc) (s : State) (b : Word) : (loc.load s).2.bank b = s.bank b := by simp [State.bank]

/-- A read of an address that is not in the selected I/O window changes nothing. -/
theorem State.busRead_state {s : State} {addr : Word} (h : s.bank addr ≠ .io) : (s.busRead addr).2 = s := by
  unfold State.busRead
  split <;> simp_all

/-- A read of RAM. -/
theorem State.busRead_of_ram {s : State} {addr : Word} (h : s.bank addr = .ram) : s.busRead addr = (s.peek addr, s) := by
  unfold State.busRead
  rw [h]

/-! ## A write -/

@[simp] theorem State.busWrite_a (addr : Word) (v : Byte) (s : State) : (s.busWrite addr v).a = s.a := by
  unfold State.busWrite; split <;> simp [State.ioWrite]
@[simp] theorem State.busWrite_x (addr : Word) (v : Byte) (s : State) : (s.busWrite addr v).x = s.x := by
  unfold State.busWrite; split <;> simp [State.ioWrite]
@[simp] theorem State.busWrite_y (addr : Word) (v : Byte) (s : State) : (s.busWrite addr v).y = s.y := by
  unfold State.busWrite; split <;> simp [State.ioWrite]
@[simp] theorem State.busWrite_sp (addr : Word) (v : Byte) (s : State) : (s.busWrite addr v).sp = s.sp := by
  unfold State.busWrite; split <;> simp [State.ioWrite]
@[simp] theorem State.busWrite_pc (addr : Word) (v : Byte) (s : State) : (s.busWrite addr v).pc = s.pc := by
  unfold State.busWrite; split <;> simp [State.ioWrite]
@[simp] theorem State.busWrite_p (addr : Word) (v : Byte) (s : State) : (s.busWrite addr v).p = s.p := by
  unfold State.busWrite; split <;> simp [State.ioWrite]
@[simp] theorem State.busWrite_run (addr : Word) (v : Byte) (s : State) : (s.busWrite addr v).run = s.run := by
  unfold State.busWrite; split <;> simp [State.ioWrite]
@[simp] theorem State.busWrite_params (addr : Word) (v : Byte) (s : State) : (s.busWrite addr v).params = s.params := by
  unfold State.busWrite; split <;> simp [State.ioWrite]
@[simp] theorem State.busWrite_ioIn (addr : Word) (v : Byte) (s : State) : (s.busWrite addr v).ioIn = s.ioIn := by
  unfold State.busWrite; split <;> simp [State.ioWrite]
@[simp] theorem State.busWrite_ioDraws (addr : Word) (v : Byte) (s : State) : (s.busWrite addr v).ioDraws = s.ioDraws := by
  unfold State.busWrite; split <;> simp [State.ioWrite]
@[simp] theorem State.busWrite_flag (addr : Word) (v : Byte) (s : State) (f : Flag) :
    (s.busWrite addr v).flag f = s.flag f := by simp [State.flag]

/-- A write outside the selected I/O window is a write of RAM, and nothing else. -/
theorem State.busWrite_eq_poke {s : State} {addr : Word} (h : s.bank addr ≠ .io) (v : Byte) :
    s.busWrite addr v = s.poke addr v := by
  unfold State.busWrite
  split <;> simp_all

/-- A write in the selected I/O window is an event, and nothing else. -/
theorem State.busWrite_eq_ioWrite {s : State} {addr : Word} (h : s.bank addr = .io) (v : Byte) :
    s.busWrite addr v = s.ioWrite addr v := by
  unfold State.busWrite
  rw [h]

/-- What every RAM byte reads after a poke. -/
theorem State.peek_poke {s : State} (h : s.ram.wf = true) (addr b : Word) (v : Byte) :
    (s.poke addr v).peek b = if b = addr then v else s.peek b := by
  simp only [State.peek, State.poke_ram, Memory.read_write h]
  by_cases hb : b = addr
  · simp [hb]
  · have : b.toNat ≠ addr.toNat := fun e => hb (BitVec.eq_of_toNat_eq e)
    simp [hb, this]

/-- What every RAM byte reads after a bus write. -/
theorem State.peek_busWrite {s : State} (h : s.ram.wf = true) (addr b : Word) (v : Byte) :
    (s.busWrite addr v).peek b = if b = addr ∧ s.bank addr ≠ .io then v else s.peek b := by
  by_cases hio : s.bank addr = .io
  · rw [State.busWrite_eq_ioWrite hio]
    simp [hio, State.ioWrite]
  · rw [State.busWrite_eq_poke hio, State.peek_poke h]
    simp [hio]

/-- Every poke keeps RAM in canonical form. -/
@[simp] theorem State.poke_wf {s : State} (h : s.ram.wf = true) (addr : Word) (v : Byte) :
    (s.poke addr v).ram.wf = true := by
  simp [Memory.wf_write h]

/-- Every bus write keeps RAM in canonical form. -/
@[simp] theorem State.busWrite_wf {s : State} (h : s.ram.wf = true) (addr : Word) (v : Byte) :
    (s.busWrite addr v).ram.wf = true := by
  unfold State.busWrite
  split <;> simp [State.ioWrite, h, Memory.wf_write h]

/-! ## The addresses that are always RAM -/

/-- Below the lowest window every address is RAM (20_memory.md R51). -/
theorem bankOf_low (port : Byte) {addr : Word} (h : addr.toNat < 0xA000) : bankOf port addr = .ram := by
  have h1 : ¬ (0xA000 ≤ addr ∧ addr ≤ 0xBFFF) := by simp only [BitVec.le_def]; intro hh; have := hh.1; simp at this; omega
  have h2 : ¬ (0xD000 ≤ addr ∧ addr ≤ 0xDFFF) := by simp only [BitVec.le_def]; intro hh; have := hh.1; simp at this; omega
  have h3 : ¬ (0xE000 ≤ addr) := by simp only [BitVec.le_def]; intro hh; simp at hh; omega
  simp only [bankOf, h1, h2, h3, if_false]

theorem stackSlot_toNat (sp : Byte) : (stackSlot sp).toNat = 0x100 + sp.toNat := by
  have h := sp.isLt
  simp only [stackSlot, stackBase, BitVec.toNat_add, BitVec.toNat_setWidth]
  simp
  omega

theorem zeroPage_toNat (b : Byte) : (zeroPage b).toNat = b.toNat := by
  have h := b.isLt
  simp only [zeroPage, BitVec.toNat_setWidth]
  omega

/-- The stack page is always RAM (20_memory.md R64). -/
@[simp] theorem State.bank_stackSlot (s : State) (sp : Byte) : s.bank (stackSlot sp) = .ram := by
  refine bankOf_low _ ?_
  have h := sp.isLt
  rw [stackSlot_toNat]; omega

/-- Page zero is always RAM (20_memory.md R64). -/
@[simp] theorem State.bank_zeroPage (s : State) (b : Byte) : s.bank (zeroPage b) = .ram := by
  refine bankOf_low _ ?_
  have h := b.isLt
  rw [zeroPage_toNat]; omega

/-- So is the byte after an address of page zero, 0x0100 included. -/
@[simp] theorem State.bank_zeroPage_succ (s : State) (b : Byte) : s.bank (zeroPage b + 1) = .ram := by
  refine bankOf_low _ ?_
  have h := b.isLt
  rw [BitVec.toNat_add, zeroPage_toNat]
  simp
  omega

/-- A pointer in page zero is read from RAM, with no effect on the environment. -/
theorem State.readWord_zeroPage (s : State) (b : Byte) :
    s.readWord (zeroPage b) = (operandWord (s.peek (zeroPage b)) (s.peek (zeroPage b + 1)), s) := by
  unfold State.readWord
  rw [State.busRead_of_ram (s.bank_zeroPage b)]
  simp only [State.busRead_of_ram (s.bank_zeroPage_succ b)]

/-- No resolver touches the environment: the only reads one makes are of page zero and 0x0100. -/
@[simp] theorem State.resolve_state (s : State) (form : MemForm) : (s.resolve form).2 = s := by
  cases form <;> simp [State.resolve, State.readWord_zeroPage]


@[simp] theorem State.loadForm_a (s : State) (form : MemForm) : (s.loadForm form).2.a = s.a := by
  simp [State.loadForm]
@[simp] theorem State.loadForm_x (s : State) (form : MemForm) : (s.loadForm form).2.x = s.x := by
  simp [State.loadForm]
@[simp] theorem State.loadForm_y (s : State) (form : MemForm) : (s.loadForm form).2.y = s.y := by
  simp [State.loadForm]
@[simp] theorem State.loadForm_sp (s : State) (form : MemForm) : (s.loadForm form).2.sp = s.sp := by
  simp [State.loadForm]
@[simp] theorem State.loadForm_pc (s : State) (form : MemForm) : (s.loadForm form).2.pc = s.pc := by
  simp [State.loadForm]
@[simp] theorem State.loadForm_p (s : State) (form : MemForm) : (s.loadForm form).2.p = s.p := by
  simp [State.loadForm]
@[simp] theorem State.loadForm_ram (s : State) (form : MemForm) : (s.loadForm form).2.ram = s.ram := by
  simp [State.loadForm]
@[simp] theorem State.loadForm_run (s : State) (form : MemForm) : (s.loadForm form).2.run = s.run := by
  simp [State.loadForm]
@[simp] theorem State.loadForm_params (s : State) (form : MemForm) : (s.loadForm form).2.params = s.params := by
  simp [State.loadForm]
@[simp] theorem State.loadForm_peek (s : State) (form : MemForm) (b : Word) : (s.loadForm form).2.peek b = s.peek b := by simp [State.peek]
@[simp] theorem State.loadForm_flag (s : State) (form : MemForm) (f : Flag) : (s.loadForm form).2.flag f = s.flag f := by simp [State.flag]
@[simp] theorem State.loadForm_port (s : State) (form : MemForm) : (s.loadForm form).2.port = s.port := by simp [State.port]
@[simp] theorem State.loadForm_bank (s : State) (form : MemForm) (b : Word) : (s.loadForm form).2.bank b = s.bank b := by simp [State.bank]

/-! ## The stack -/

/-- `Push` as a write of RAM (45_stack_control.md R215). -/
theorem State.push_eq (v : Byte) (s : State) : s.push v = (s.poke (stackSlot s.sp) v).setSp (s.sp - 1) := by
  unfold State.push
  rw [State.busWrite_eq_poke (by simp)]

/-- `Pull` as a read of RAM (45_stack_control.md R216). -/
theorem State.pull_eq (s : State) : s.pull = (s.peek (stackSlot (s.sp + 1)), s.setSp (s.sp + 1)) := by
  unfold State.pull
  rw [State.busRead_of_ram (by simp)]
  simp

/-- Pulling a word as two reads of RAM. -/
theorem State.pullWord_eq (s : State) :
    s.pullWord = (operandWord (s.peek (stackSlot (s.sp + 1))) (s.peek (stackSlot (s.sp + 1 + 1))),
      s.setSp (s.sp + 1 + 1)) := by
  simp [State.pullWord, State.pull_eq]
  rfl

@[simp] theorem State.push_a (v : Byte) (s : State) : (s.push v).a = s.a := by simp [State.push_eq]
@[simp] theorem State.push_x (v : Byte) (s : State) : (s.push v).x = s.x := by simp [State.push_eq]
@[simp] theorem State.push_y (v : Byte) (s : State) : (s.push v).y = s.y := by simp [State.push_eq]
@[simp] theorem State.push_pc (v : Byte) (s : State) : (s.push v).pc = s.pc := by simp [State.push_eq]
@[simp] theorem State.push_p (v : Byte) (s : State) : (s.push v).p = s.p := by simp [State.push_eq]
@[simp] theorem State.push_run (v : Byte) (s : State) : (s.push v).run = s.run := by simp [State.push_eq]
@[simp] theorem State.push_params (v : Byte) (s : State) : (s.push v).params = s.params := by simp [State.push_eq]
@[simp] theorem State.push_ioIn (v : Byte) (s : State) : (s.push v).ioIn = s.ioIn := by simp [State.push_eq]
@[simp] theorem State.push_ioDraws (v : Byte) (s : State) : (s.push v).ioDraws = s.ioDraws := by simp [State.push_eq]
@[simp] theorem State.push_ioLog (v : Byte) (s : State) : (s.push v).ioLog = s.ioLog := by simp [State.push_eq]
@[simp] theorem State.push_sp (v : Byte) (s : State) : (s.push v).sp = s.sp - 1 := by simp [State.push_eq]

@[simp] theorem State.push_wf {s : State} (h : s.ram.wf = true) (v : Byte) : (s.push v).ram.wf = true := by
  simp [State.push_eq, Memory.wf_write h]

/-- What every RAM byte reads after a push. -/
theorem State.peek_push {s : State} (h : s.ram.wf = true) (v : Byte) (b : Word) :
    (s.push v).peek b = if b = stackSlot s.sp then v else s.peek b := by
  rw [State.push_eq]
  simp [State.peek_poke h]

/-- The stack slots of two different stack pointers are different addresses. -/
theorem stackSlot_inj {sp sp' : Byte} : stackSlot sp = stackSlot sp' ↔ sp = sp' := by
  constructor
  · intro h
    have := congrArg BitVec.toNat h
    rw [stackSlot_toNat, stackSlot_toNat] at this
    exact BitVec.eq_of_toNat_eq (by omega)
  · rintro rfl; rfl

end Sys2Proof.Machine
end

