-- ==== Sys2Proof/Laws/PerInstr.lean ====
section
/-! SUPPORT. Per instruction: its mnemonic and its operand make the instruction again, so the decoder's last step undoes the
encoder's first. One lemma per constructor. -/

namespace Sys2Proof.Laws.Parts

/-- `Instr.ofParts` gives an instruction back from its mnemonic and operand (30_encoding.md R96, R103). -/
def Statement (i : Instr) : Prop :=
  Instr.ofParts i.mnemonic i.operand = some i

theorem oraImm (v : Byte) : Statement (.oraImm v) := rfl
theorem oraZp (v : Byte) : Statement (.oraZp v) := rfl
theorem oraZpx (v : Byte) : Statement (.oraZpx v) := rfl
theorem oraAbs (v : Word) : Statement (.oraAbs v) := rfl
theorem oraAbsx (v : Word) : Statement (.oraAbsx v) := rfl
theorem oraAbsy (v : Word) : Statement (.oraAbsy v) := rfl
theorem oraIndx (v : Byte) : Statement (.oraIndx v) := rfl
theorem oraIndy (v : Byte) : Statement (.oraIndy v) := rfl
theorem andImm (v : Byte) : Statement (.andImm v) := rfl
theorem andZp (v : Byte) : Statement (.andZp v) := rfl
theorem andZpx (v : Byte) : Statement (.andZpx v) := rfl
theorem andAbs (v : Word) : Statement (.andAbs v) := rfl
theorem andAbsx (v : Word) : Statement (.andAbsx v) := rfl
theorem andAbsy (v : Word) : Statement (.andAbsy v) := rfl
theorem andIndx (v : Byte) : Statement (.andIndx v) := rfl
theorem andIndy (v : Byte) : Statement (.andIndy v) := rfl
theorem eorImm (v : Byte) : Statement (.eorImm v) := rfl
theorem eorZp (v : Byte) : Statement (.eorZp v) := rfl
theorem eorZpx (v : Byte) : Statement (.eorZpx v) := rfl
theorem eorAbs (v : Word) : Statement (.eorAbs v) := rfl
theorem eorAbsx (v : Word) : Statement (.eorAbsx v) := rfl
theorem eorAbsy (v : Word) : Statement (.eorAbsy v) := rfl
theorem eorIndx (v : Byte) : Statement (.eorIndx v) := rfl
theorem eorIndy (v : Byte) : Statement (.eorIndy v) := rfl
theorem adcImm (v : Byte) : Statement (.adcImm v) := rfl
theorem adcZp (v : Byte) : Statement (.adcZp v) := rfl
theorem adcZpx (v : Byte) : Statement (.adcZpx v) := rfl
theorem adcAbs (v : Word) : Statement (.adcAbs v) := rfl
theorem adcAbsx (v : Word) : Statement (.adcAbsx v) := rfl
theorem adcAbsy (v : Word) : Statement (.adcAbsy v) := rfl
theorem adcIndx (v : Byte) : Statement (.adcIndx v) := rfl
theorem adcIndy (v : Byte) : Statement (.adcIndy v) := rfl
theorem sbcImm (v : Byte) : Statement (.sbcImm v) := rfl
theorem sbcZp (v : Byte) : Statement (.sbcZp v) := rfl
theorem sbcZpx (v : Byte) : Statement (.sbcZpx v) := rfl
theorem sbcAbs (v : Word) : Statement (.sbcAbs v) := rfl
theorem sbcAbsx (v : Word) : Statement (.sbcAbsx v) := rfl
theorem sbcAbsy (v : Word) : Statement (.sbcAbsy v) := rfl
theorem sbcIndx (v : Byte) : Statement (.sbcIndx v) := rfl
theorem sbcIndy (v : Byte) : Statement (.sbcIndy v) := rfl
theorem cmpImm (v : Byte) : Statement (.cmpImm v) := rfl
theorem cmpZp (v : Byte) : Statement (.cmpZp v) := rfl
theorem cmpZpx (v : Byte) : Statement (.cmpZpx v) := rfl
theorem cmpAbs (v : Word) : Statement (.cmpAbs v) := rfl
theorem cmpAbsx (v : Word) : Statement (.cmpAbsx v) := rfl
theorem cmpAbsy (v : Word) : Statement (.cmpAbsy v) := rfl
theorem cmpIndx (v : Byte) : Statement (.cmpIndx v) := rfl
theorem cmpIndy (v : Byte) : Statement (.cmpIndy v) := rfl
theorem cpxImm (v : Byte) : Statement (.cpxImm v) := rfl
theorem cpxZp (v : Byte) : Statement (.cpxZp v) := rfl
theorem cpxAbs (v : Word) : Statement (.cpxAbs v) := rfl
theorem cpyImm (v : Byte) : Statement (.cpyImm v) := rfl
theorem cpyZp (v : Byte) : Statement (.cpyZp v) := rfl
theorem cpyAbs (v : Word) : Statement (.cpyAbs v) := rfl
theorem bitZp (v : Byte) : Statement (.bitZp v) := rfl
theorem bitAbs (v : Word) : Statement (.bitAbs v) := rfl
theorem aslAcc : Statement .aslAcc := rfl
theorem aslZp (v : Byte) : Statement (.aslZp v) := rfl
theorem aslZpx (v : Byte) : Statement (.aslZpx v) := rfl
theorem aslAbs (v : Word) : Statement (.aslAbs v) := rfl
theorem aslAbsx (v : Word) : Statement (.aslAbsx v) := rfl
theorem lsrAcc : Statement .lsrAcc := rfl
theorem lsrZp (v : Byte) : Statement (.lsrZp v) := rfl
theorem lsrZpx (v : Byte) : Statement (.lsrZpx v) := rfl
theorem lsrAbs (v : Word) : Statement (.lsrAbs v) := rfl
theorem lsrAbsx (v : Word) : Statement (.lsrAbsx v) := rfl
theorem rolAcc : Statement .rolAcc := rfl
theorem rolZp (v : Byte) : Statement (.rolZp v) := rfl
theorem rolZpx (v : Byte) : Statement (.rolZpx v) := rfl
theorem rolAbs (v : Word) : Statement (.rolAbs v) := rfl
theorem rolAbsx (v : Word) : Statement (.rolAbsx v) := rfl
theorem rorAcc : Statement .rorAcc := rfl
theorem rorZp (v : Byte) : Statement (.rorZp v) := rfl
theorem rorZpx (v : Byte) : Statement (.rorZpx v) := rfl
theorem rorAbs (v : Word) : Statement (.rorAbs v) := rfl
theorem rorAbsx (v : Word) : Statement (.rorAbsx v) := rfl
theorem incZp (v : Byte) : Statement (.incZp v) := rfl
theorem incZpx (v : Byte) : Statement (.incZpx v) := rfl
theorem incAbs (v : Word) : Statement (.incAbs v) := rfl
theorem incAbsx (v : Word) : Statement (.incAbsx v) := rfl
theorem decZp (v : Byte) : Statement (.decZp v) := rfl
theorem decZpx (v : Byte) : Statement (.decZpx v) := rfl
theorem decAbs (v : Word) : Statement (.decAbs v) := rfl
theorem decAbsx (v : Word) : Statement (.decAbsx v) := rfl
theorem inx : Statement .inx := rfl
theorem iny : Statement .iny := rfl
theorem dex : Statement .dex := rfl
theorem dey : Statement .dey := rfl
theorem ldaImm (v : Byte) : Statement (.ldaImm v) := rfl
theorem ldaZp (v : Byte) : Statement (.ldaZp v) := rfl
theorem ldaZpx (v : Byte) : Statement (.ldaZpx v) := rfl
theorem ldaAbs (v : Word) : Statement (.ldaAbs v) := rfl
theorem ldaAbsx (v : Word) : Statement (.ldaAbsx v) := rfl
theorem ldaAbsy (v : Word) : Statement (.ldaAbsy v) := rfl
theorem ldaIndx (v : Byte) : Statement (.ldaIndx v) := rfl
theorem ldaIndy (v : Byte) : Statement (.ldaIndy v) := rfl
theorem ldxImm (v : Byte) : Statement (.ldxImm v) := rfl
theorem ldxZp (v : Byte) : Statement (.ldxZp v) := rfl
theorem ldxZpy (v : Byte) : Statement (.ldxZpy v) := rfl
theorem ldxAbs (v : Word) : Statement (.ldxAbs v) := rfl
theorem ldxAbsy (v : Word) : Statement (.ldxAbsy v) := rfl
theorem ldyImm (v : Byte) : Statement (.ldyImm v) := rfl
theorem ldyZp (v : Byte) : Statement (.ldyZp v) := rfl
theorem ldyZpx (v : Byte) : Statement (.ldyZpx v) := rfl
theorem ldyAbs (v : Word) : Statement (.ldyAbs v) := rfl
theorem ldyAbsx (v : Word) : Statement (.ldyAbsx v) := rfl
theorem staZp (v : Byte) : Statement (.staZp v) := rfl
theorem staZpx (v : Byte) : Statement (.staZpx v) := rfl
theorem staAbs (v : Word) : Statement (.staAbs v) := rfl
theorem staAbsx (v : Word) : Statement (.staAbsx v) := rfl
theorem staAbsy (v : Word) : Statement (.staAbsy v) := rfl
theorem staIndx (v : Byte) : Statement (.staIndx v) := rfl
theorem staIndy (v : Byte) : Statement (.staIndy v) := rfl
theorem stxZp (v : Byte) : Statement (.stxZp v) := rfl
theorem stxZpy (v : Byte) : Statement (.stxZpy v) := rfl
theorem stxAbs (v : Word) : Statement (.stxAbs v) := rfl
theorem styZp (v : Byte) : Statement (.styZp v) := rfl
theorem styZpx (v : Byte) : Statement (.styZpx v) := rfl
theorem styAbs (v : Word) : Statement (.styAbs v) := rfl
theorem tax : Statement .tax := rfl
theorem txa : Statement .txa := rfl
theorem tay : Statement .tay := rfl
theorem tya : Statement .tya := rfl
theorem tsx : Statement .tsx := rfl
theorem txs : Statement .txs := rfl
theorem clc : Statement .clc := rfl
theorem sec : Statement .sec := rfl
theorem cli : Statement .cli := rfl
theorem sei : Statement .sei := rfl
theorem cld : Statement .cld := rfl
theorem sed : Statement .sed := rfl
theorem clv : Statement .clv := rfl
theorem bpl (v : Byte) : Statement (.bpl v) := rfl
theorem bmi (v : Byte) : Statement (.bmi v) := rfl
theorem bvc (v : Byte) : Statement (.bvc v) := rfl
theorem bvs (v : Byte) : Statement (.bvs v) := rfl
theorem bcc (v : Byte) : Statement (.bcc v) := rfl
theorem bcs (v : Byte) : Statement (.bcs v) := rfl
theorem bne (v : Byte) : Statement (.bne v) := rfl
theorem beq (v : Byte) : Statement (.beq v) := rfl
theorem nop : Statement .nop := rfl
theorem pha : Statement .pha := rfl
theorem pla : Statement .pla := rfl
theorem php : Statement .php := rfl
theorem plp : Statement .plp := rfl
theorem jsr (v : Word) : Statement (.jsr v) := rfl
theorem rts : Statement .rts := rfl
theorem jmpAbs (v : Word) : Statement (.jmpAbs v) := rfl
theorem jmpInd (v : Word) : Statement (.jmpInd v) := rfl
theorem brk : Statement .brk := rfl
theorem rti : Statement .rti := rfl

end Sys2Proof.Laws.Parts
end

