-- ==== Sys2Proof/Laws/Decode.lean ====
section
/-! SUPPORT. The decoder's and the encoder's parts undo each other: operand bytes, mnemonics and table rows. -/

namespace Sys2Proof

/-! ## Bytes of a word -/

theorem lowByte_toNat (w : Word) : (lowByte w).toNat = w.toNat % 256 := by
  simp [lowByte]

theorem highByte_toNat (w : Word) : (highByte w).toNat = w.toNat / 256 := by
  have h := w.isLt
  simp [highByte, Nat.shiftRight_eq_div_pow]
  omega

theorem operandWord_toNat (low high : Byte) : (operandWord low high).toNat = high.toNat * 256 + low.toNat := by
  have h := low.isLt
  simp only [operandWord, BitVec.toNat_append]
  rw [← Nat.shiftLeft_add_eq_or_of_lt h, Nat.shiftLeft_eq]

@[simp] theorem operandWord_low_high (w : Word) : operandWord (lowByte w) (highByte w) = w := by
  apply BitVec.eq_of_toNat_eq
  rw [operandWord_toNat, lowByte_toNat, highByte_toNat]
  omega

@[simp] theorem lowByte_operandWord (low high : Byte) : lowByte (operandWord low high) = low := by
  have h := low.isLt
  apply BitVec.eq_of_toNat_eq
  rw [lowByte_toNat, operandWord_toNat]
  omega

@[simp] theorem highByte_operandWord (low high : Byte) : highByte (operandWord low high) = high := by
  have h := low.isLt
  apply BitVec.eq_of_toNat_eq
  rw [highByte_toNat, operandWord_toNat]
  omega

/-! ## Operand bytes -/

/-- An operand's bytes, with more after them, are taken back as that operand. -/
theorem takeOperand_bytes (o : Operand) (rest : List Byte) :
    o.mode.takeOperand (o.bytes ++ rest) = some (o, rest) := by
  cases o with
  | mem form => cases form <;> simp [Operand.mode, MemForm.mode, Operand.bytes, Mode.takeOperand]
  | _ => simp [Operand.mode, Operand.bytes, Mode.takeOperand]

/-- What is taken as an operand is that operand's bytes, in that mode. -/
theorem takeOperand_some {mode : Mode} {bytes : List Byte} {o : Operand} {rest : List Byte}
    (h : mode.takeOperand bytes = some (o, rest)) : o.mode = mode ∧ bytes = o.bytes ++ rest := by
  rcases bytes with _ | ⟨b, _ | ⟨c, more⟩⟩ <;> cases mode <;> cases h <;>
    exact ⟨rfl, by simp [Operand.bytes]⟩

/-- The opcode and the operand bytes make up the length of the mode (30_encoding.md R91). -/
theorem bytes_length (o : Operand) : o.bytes.length + 1 = o.mode.length := by
  cases o with
  | mem form => cases form <;> rfl
  | _ => rfl

/-! ## Mnemonic and operand -/

/-- The parts of an instruction give it back. -/
theorem ofParts_parts (i : Instr) : Instr.ofParts i.mnemonic i.operand = some i := by
  cases i <;> rfl

/-- An instruction made from parts has those parts. -/
theorem ofParts_some {m : Mnemonic} {o : Operand} {i : Instr} (h : Instr.ofParts m o = some i) :
    i.mnemonic = m ∧ i.operand = o := by
  rcases o with _ | _ | _ | (_ | _ | _ | _ | _ | _ | _ | _) | _ | _ <;> cases m <;> cases h <;> exact ⟨rfl, rfl⟩

/-! ## Table rows -/

/-- Where no opcode stands twice, the row found for a mnemonic and a mode is the row found for its opcode. -/
theorem lookup_of_rowFor {table : List Row} (hw : opcodesDistinct table = true) {m : Mnemonic} {mode : Mode} {row : Row}
    (h : rowFor table m mode = some row) : lookup table row.opcode = some row ∧ row.mnemonic = m ∧ row.mode = mode := by
  induction table with
  | nil => simp [rowFor] at h
  | cons r rest ih =>
    simp only [opcodesDistinct, Bool.and_eq_true, List.all_eq_true] at hw
    simp only [rowFor, List.find?_cons] at h
    split at h
    · rename_i hr
      simp only [Option.some.injEq] at h
      subst h
      simp only [Bool.and_eq_true, beq_iff_eq] at hr
      exact ⟨by simp [lookup], hr.1, hr.2⟩
    · have hrow : row ∈ rest := List.mem_of_find?_eq_some h
      obtain ⟨h1, h2⟩ := ih hw.2 h
      have hap := hw.1 row hrow
      simp only [bne_iff_ne, ne_eq] at hap
      refine ⟨?_, h2⟩
      have hne : (r.opcode == row.opcode) = false := by simpa using hap
      simp only [lookup, List.find?_cons, hne]
      exact h1

/-- A row found for an opcode has that opcode. -/
theorem opcode_of_lookup {table : List Row} {opcode : Byte} {row : Row} (h : lookup table opcode = some row) :
    row.opcode = opcode := by
  simpa using List.find?_some h

/-- Where no (mnemonic, mode) pair stands twice, the row found for an opcode is the row found for its pair. -/
theorem rowFor_of_lookup {table : List Row} (hw : pairsDistinct table = true) {opcode : Byte} {row : Row}
    (h : lookup table opcode = some row) : rowFor table row.mnemonic row.mode = some row ∧ row.opcode = opcode := by
  induction table with
  | nil => simp [lookup] at h
  | cons r rest ih =>
    simp only [pairsDistinct, Bool.and_eq_true, List.all_eq_true] at hw
    simp only [lookup, List.find?_cons] at h
    split at h
    · rename_i hr
      simp only [Option.some.injEq] at h
      subst h
      simp only [beq_iff_eq] at hr
      exact ⟨by simp [rowFor], hr⟩
    · have hrow : row ∈ rest := List.mem_of_find?_eq_some h
      obtain ⟨h1, h2⟩ := ih hw.2 h
      have hap := hw.1 row hrow
      simp only [Bool.not_eq_true'] at hap
      refine ⟨?_, h2⟩
      simp only [rowFor, List.find?_cons, hap]
      exact h1

/-- A row found in a table is one of its rows. -/
theorem lookup_mem {table : List Row} {opcode : Byte} {row : Row} (h : lookup table opcode = some row) : row ∈ table :=
  List.mem_of_find?_eq_some h

/-- Whether a mnemonic has a handler depends on the mode alone, not on the operand bytes (30_encoding.md R99). -/
theorem ofParts_isSome (m : Mnemonic) (o : Operand) :
    (Instr.ofParts m o).isSome = (Instr.ofParts m o.mode.zeroOperand).isSome := by
  rcases o with _ | _ | _ | (_ | _ | _ | _ | _ | _ | _ | _) | _ | _ <;> cases m <;> rfl

end Sys2Proof
end

