-- ==== Sys2Proof/Laws/Flags.lean ====
section
/-! SUPPORT. The laws of the status byte: reading a flag after a write, and what each computation does to every flag. -/

namespace Sys2Proof.Machine

/-- A flag write reaches its own bit and no other (10_state.md R27). -/
@[simp] theorem getFlag_setFlag (f g : Flag) (v : Bool) (p : Byte) :
    getFlag (setFlag f v p) g = if g = f then v else getFlag p g := by
  cases v <;> cases f <;> cases g <;>
    simp [getFlag, setFlag, Flag.mask, Flag.bit]

/-- Two status bytes with the same eight flags are the same byte. -/
theorem status_ext {p q : Byte} (h : ∀ f : Flag, getFlag p f = getFlag q f) : p = q := by
  apply BitVec.eq_of_getLsbD_eq
  intro i hi
  have h0 := h .carry
  have h1 := h .zero
  have h2 := h .interrupt
  have h3 := h .decimal
  have h4 := h .brk
  have h5 := h .unused
  have h6 := h .overflow
  have h7 := h .negative
  simp only [getFlag, Flag.bit] at h0 h1 h2 h3 h4 h5 h6 h7
  have : i = 0 ∨ i = 1 ∨ i = 2 ∨ i = 3 ∨ i = 4 ∨ i = 5 ∨ i = 6 ∨ i = 7 := by omega
  rcases this with rfl | rfl | rfl | rfl | rfl | rfl | rfl | rfl <;> assumption

/-- Every flag after `deriveNZ` (10_state.md R26). -/
@[simp] theorem getFlag_deriveNZ (b p : Byte) (f : Flag) :
    getFlag (deriveNZ b p) f =
      if f = .zero then b == 0 else if f = .negative then b.msb else getFlag p f := by
  simp [deriveNZ]

/-- The result of `ADC` as a number (41_logic_arith.md R134). -/
theorem addWithCarry_result (a m p : Byte) :
    (addWithCarry a m p).1.toNat = (a.toNat + m.toNat + (getFlag p .carry).toNat) % 256 := by
  simp [addWithCarry, carrySum]

/-- Every flag after `ADC` (41_logic_arith.md R134). -/
theorem addWithCarry_flag (a m p : Byte) (f : Flag) :
    getFlag (addWithCarry a m p).2 f =
      if f = .zero then (addWithCarry a m p).1 == 0
      else if f = .negative then (addWithCarry a m p).1.msb
      else if f = .overflow then a.msb == m.msb && (addWithCarry a m p).1.msb != a.msb
      else if f = .carry then decide (255 < carrySum a m (getFlag p .carry))
      else getFlag p f := by
  simp only [addWithCarry, getFlag_deriveNZ, getFlag_setFlag]

/-- Every flag after a compare (41_logic_arith.md R137). -/
theorem compareFlags_flag (reg m p : Byte) (f : Flag) :
    getFlag (compareFlags reg m p) f =
      if f = .zero then reg - m == 0
      else if f = .negative then (reg - m).msb
      else if f = .carry then decide (m ≤ reg)
      else getFlag p f := by
  simp only [compareFlags, getFlag_deriveNZ, getFlag_setFlag]

/-- Every flag after `BIT` (41_logic_arith.md R140). -/
theorem bitTestFlags_flag (a m p : Byte) (f : Flag) :
    getFlag (bitTestFlags a m p) f =
      if f = .overflow then m.getLsbD 6
      else if f = .negative then m.getLsbD 7
      else if f = .zero then a &&& m == 0
      else getFlag p f := by
  simp only [bitTestFlags, getFlag_setFlag]

/-- Every flag after a shift or rotate (42_shift_incdec.md section 2). -/
@[simp] theorem shifted_flag (r : Byte) (out : Bool) (p : Byte) (f : Flag) :
    getFlag (shifted r out p).2 f =
      if f = .zero then r == 0 else if f = .negative then r.msb else if f = .carry then out else getFlag p f := by
  simp only [shifted, getFlag_deriveNZ, getFlag_setFlag]

@[simp] theorem shifted_result (r : Byte) (out : Bool) (p : Byte) : (shifted r out p).1 = r := rfl

end Sys2Proof.Machine
end

