-- ==== Sys2Proof/Laws/Shapes.lean ====
section
/-! SUPPORT. What the shapes of the instruction rules, the trap entry, the trap return and the fetch do, each said once. -/

namespace Sys2Proof.Machine

/-! ## States that agree but for the environment -/

theorem SameCore.refl (s : State) : SameCore s s := rfl

theorem SameCore.trans {s t u : State} (h : SameCore s t) (h' : SameCore t u) : SameCore s u := by
  unfold SameCore at *
  rw [h'] ; rw [h]

theorem sameCore_iff (s t : State) : SameCore s t ↔
    t.a = s.a ∧ t.x = s.x ∧ t.y = s.y ∧ t.sp = s.sp ∧ t.pc = s.pc ∧ t.p = s.p ∧ t.ram = s.ram ∧ t.run = s.run ∧
      t.params = s.params := by
  cases s; cases t
  simp only [SameCore, State.mk.injEq, and_true]

/-- A bus read leaves the core's own state alone (20_memory.md R51, R58). -/
theorem State.busRead_sameCore (s : State) (addr : Word) : SameCore s (s.busRead addr).2 := by
  simp [sameCore_iff]

theorem State.readWord_sameCore (s : State) (addr : Word) : SameCore s (s.readWord addr).2 := by
  simp [sameCore_iff]

theorem State.readBytes_sameCore (n : Nat) (addr : Word) (s : State) : SameCore s (State.readBytes n addr s).2 := by
  induction n generalizing addr s with
  | zero => exact SameCore.refl s
  | succ n ih => exact (s.busRead_sameCore addr).trans (ih (addr + 1) _)

theorem State.readBytes_length (n : Nat) (addr : Word) (s : State) : (State.readBytes n addr s).1.length = n := by
  induction n generalizing addr s with
  | zero => rfl
  | succ n ih => simp [State.readBytes, ih]

/-! ## The shapes -/

/-- A load of a memory operand: one read of the resolved address. -/
theorem State.loadForm_eq (s : State) (form : MemForm) : s.loadForm form = s.busRead (s.resolve form).1 := by
  simp [State.loadForm, Loc.load]

/-- A store: one write of the resolved address, then PC. -/
theorem storeTo_eq (value : Byte) (form : MemForm) (s : State) :
    storeTo value form s = (s.busWrite (s.resolve form).1 value).advance (formLength form) := by
  simp [storeTo, Loc.store]

/-- A read-modify-write of memory: one read, then one write of the same address, then the status byte and PC. -/
theorem modifyMemory_eq (op : Byte → Byte → Byte × Byte) (form : MemForm) (s : State) :
    modifyMemory op form s =
      (((s.busRead (s.resolve form).1).2.busWrite (s.resolve form).1 (op (s.busRead (s.resolve form).1).1 s.p).1).setP
        (op (s.busRead (s.resolve form).1).1 s.p).2).advance (formLength form) := by
  simp [modifyMemory, modify, Loc.load, Loc.store]

/-- A read-modify-write of the accumulator. -/
theorem modifyAcc_eq (op : Byte → Byte → Byte × Byte) (s : State) :
    modifyAcc op s = ((s.setA (op s.a s.p).1).setP (op s.a s.p).2).advance 1 := rfl

/-- Pushing a word: two writes of the stack page. -/
theorem State.pushWord_eq (w : Word) (s : State) :
    s.pushWord w =
      ((s.poke (stackSlot s.sp) (highByte w)).poke (stackSlot (s.sp - 1)) (lowByte w)).setSp (s.sp - 1 - 1) := by
  simp [State.pushWord, State.push_eq]
  rfl

/-- The return from a break: three reads of the stack page. -/
theorem State.returnFromBreak_eq (s : State) :
    s.returnFromBreak =
      ((s.setP (s.peek (stackSlot (s.sp + 1)))).setSp (s.sp + 1 + 1 + 1)).setPc
        (operandWord (s.peek (stackSlot (s.sp + 1 + 1))) (s.peek (stackSlot (s.sp + 1 + 1 + 1)))) := by
  simp [State.returnFromBreak, State.pull_eq, State.pullWord_eq]
  rfl

/-- The state of a break entry before PC is loaded: the two flags set, three bytes pushed. -/
theorem State.enterBreak_eq (s : State) :
    s.enterBreak =
      (let q := Machine.setFlag .interrupt true (Machine.setFlag .brk true s.p)
       let saved := ((((s.setP q).poke (stackSlot s.sp) (highByte (s.pc + 2))).poke (stackSlot (s.sp - 1))
         (lowByte (s.pc + 2))).poke (stackSlot (s.sp - 1 - 1)) q).setSp (s.sp - 1 - 1 - 1)
       (saved.readWord s.params.brkVector).2.setPc (saved.readWord s.params.brkVector).1) := by
  simp [State.enterBreak, State.pushWord_eq, State.push_eq]
  rfl

/-! ## The fetch -/

/-- What the fetch found: an unpopulated opcode after one bus read, or the bytes of an instruction of the length the table
tells (30_encoding.md R93, 20_memory.md R63). -/
theorem State.fetch_illegal {s u : State} {opcode : Byte} (h : s.fetch = .illegal opcode u) :
    s.busRead s.pc = (opcode, u) ∧ lookup s.params.optable opcode = none := by
  unfold State.fetch instrLength at h
  cases hl : lookup s.params.optable (s.busRead s.pc).1 with
  | none =>
    simp only [hl, Option.map_none, Fetched.illegal.injEq] at h
    obtain ⟨h1, h2⟩ := h
    subst h1 h2
    exact ⟨rfl, hl⟩
  | some row => simp [hl] at h

theorem State.fetch_bytes {s u : State} {code : List Byte} (h : s.fetch = .bytes code u) :
    ∃ opcode operand row, code = opcode :: operand ∧ lookup s.params.optable opcode = some row ∧
      operand.length = row.mode.length - 1 ∧ (s.busRead s.pc).1 = opcode ∧ SameCore s u := by
  unfold State.fetch instrLength at h
  cases hl : lookup s.params.optable (s.busRead s.pc).1 with
  | none => simp [hl] at h
  | some row =>
    simp only [hl, Option.map_some, Fetched.bytes.injEq] at h
    obtain ⟨h1, h2⟩ := h
    refine ⟨(s.busRead s.pc).1, _, row, h1.symm, hl, State.readBytes_length _ _ _, rfl, ?_⟩
    subst h2
    exact (s.busRead_sameCore s.pc).trans (State.readBytes_sameCore _ _ _)

/-! ## The step -/

/-- Everything a step that answers a next state has done (70_reset_and_hazards.md R273). -/
theorem step_next {s t : State} (h : step s = .next t) :
    s.run = .running ∧
      ((∃ opcode u, s.fetch = .illegal opcode u ∧ t = u.raiseIllegal opcode) ∨
        ∃ code u i rest, s.fetch = .bytes code u ∧ decodeWith s.params.optable code = .ok (i, rest) ∧
          exec i u = .next t) := by
  unfold step at h
  split at h
  · simp at h
  · rename_i hr
    refine ⟨hr, ?_⟩
    split at h
    · rename_i opcode u hf
      simp only [Host.Outcome.next.injEq] at h
      exact .inl ⟨opcode, u, hf, h.symm⟩
    · rename_i code u hf
      split at h
      · rename_i i rest hd
        exact .inr ⟨code, u, i, rest, hf, hd, h⟩
      · simp at h

end Sys2Proof.Machine
end

