-- ==== Sys2Proof/Laws/Exec.lean ====
section
/-! SUPPORT. The whole of `exec` in one lemma: every instruction answers a next state, the effect of its mnemonic on its
operand. A proof about a family cites it and splits on 6 shapes or 56 mnemonics, not on 151 constructors. -/

namespace Sys2Proof.Machine

/-- The shape of a mnemonic's rule: one of the shared shapes of Operands.lean, with what is particular to the mnemonic. -/
inductive Shape where
  | reads (body : Byte → State → State)
  | modifies (op : Byte → Byte → Byte × Byte)
  | stores (value : State → Byte)
  | implied (body : State → State)
  | branch (flag : Flag) (value : Bool)
  | transfer (effect : Operand → State → State)

/-- JMP by its operand. -/
def jumpEffect : Operand → State → State
  | .mem (.abs w), s => s.setPc w
  | .ind w, s => jumpIndirect w s
  | _, s => s

/-- JSR by its operand. -/
def callEffect : Operand → State → State
  | .mem (.abs w), s => (s.pushWord (s.pc + 2)).setPc w
  | _, s => s

/-- The shape of each mnemonic. -/
def shapeOf : Mnemonic → Shape
  | .ora => .reads oraBody
  | .and => .reads andBody
  | .eor => .reads eorBody
  | .adc => .reads adcBody
  | .sbc => .reads sbcBody
  | .cmp => .reads cmpBody
  | .cpx => .reads cpxBody
  | .cpy => .reads cpyBody
  | .bit => .reads bitBody
  | .lda => .reads ldaBody
  | .ldx => .reads ldxBody
  | .ldy => .reads ldyBody
  | .asl => .modifies shiftLeft
  | .lsr => .modifies shiftRight
  | .rol => .modifies rotateLeft
  | .ror => .modifies rotateRight
  | .inc => .modifies increment
  | .dec => .modifies decrement
  | .sta => .stores State.a
  | .stx => .stores State.x
  | .sty => .stores State.y
  | .inx => .implied inxBody
  | .iny => .implied inyBody
  | .dex => .implied dexBody
  | .dey => .implied deyBody
  | .tax => .implied taxBody
  | .txa => .implied txaBody
  | .tay => .implied tayBody
  | .tya => .implied tyaBody
  | .tsx => .implied tsxBody
  | .txs => .implied txsBody
  | .clc => .implied (State.setFlag .carry false)
  | .sec => .implied (State.setFlag .carry true)
  | .cli => .implied (State.setFlag .interrupt false)
  | .sei => .implied (State.setFlag .interrupt true)
  | .cld => .implied (State.setFlag .decimal false)
  | .sed => .implied (State.setFlag .decimal true)
  | .clv => .implied (State.setFlag .overflow false)
  | .nop => .implied id
  | .pha => .implied (fun s => s.push s.a)
  | .pla => .implied plaBody
  | .php => .implied (fun s => s.push s.p)
  | .plp => .implied plpBody
  | .bpl => .branch .negative false
  | .bmi => .branch .negative true
  | .bvc => .branch .overflow false
  | .bvs => .branch .overflow true
  | .bcc => .branch .carry false
  | .bcs => .branch .carry true
  | .bne => .branch .zero false
  | .beq => .branch .zero true
  | .jsr => .transfer callEffect
  | .rts => .transfer (fun _ => returnFromSubroutine)
  | .jmp => .transfer jumpEffect
  | .brk => .transfer (fun _ => State.enterBreak)
  | .rti => .transfer (fun _ => State.returnFromBreak)

/-- What a shape does with an operand; operands the shape does not take do nothing. -/
def Shape.effect : Shape → Operand → State → State
  | .reads body, .imm b, s => immediate body b s
  | .reads body, .mem form, s => fromMemory body form s
  | .reads _, _, s => s
  | .modifies op, .acc, s => modifyAcc op s
  | .modifies op, .mem form, s => modifyMemory op form s
  | .modifies _, _, s => s
  | .stores value, .mem form, s => storeTo (value s) form s
  | .stores _, _, s => s
  | .implied body, _, s => Machine.implied body s
  | .branch flag value, .rel off, s => branchIf (s.flag flag == value) off s
  | .branch _ _, _, s => s
  | .transfer effect, o, s => effect o s

/-- The operand kinds a shape takes. -/
def Shape.takes : Shape → Operand → Bool
  | .reads _, .imm _ => true
  | .reads _, .mem _ => true
  | .modifies _, .acc => true
  | .modifies _, .mem _ => true
  | .stores _, .mem _ => true
  | .implied _, .imp => true
  | .branch _ _, .rel _ => true
  | .transfer _, .imp => true
  | .transfer _, .ind _ => true
  | .transfer _, .mem (.abs _) => true
  | _, _ => false

/-- `exec`, said once: every instruction answers a next state, its shape's effect on its operand. -/
theorem exec_eq (i : Instr) (s : State) : exec i s = .next ((shapeOf i.mnemonic).effect i.operand s) := by
  cases i <;> first | rfl | (simp [exec, Shape.effect, shapeOf, Instr.mnemonic, Instr.operand, execBpl, execBmi, execBvc,
    execBvs, execBcc, execBcs, execBne, execBeq, branchIf])

/-- Every instruction's operand is one its shape takes. -/
theorem shape_takes (i : Instr) : (shapeOf i.mnemonic).takes i.operand = true := by
  cases i <;> rfl

/-- An operand-reading instruction, by its form. -/
theorem exec_reads {i : Instr} {body : Byte → State → State} (h : shapeOf i.mnemonic = .reads body) :
    (∃ b, i.operand = .imm b ∧ ∀ s, exec i s = .next (immediate body b s)) ∨
      ∃ form, i.operand = .mem form ∧ ∀ s, exec i s = .next (fromMemory body form s) := by
  have ht := shape_takes i
  have he := exec_eq i
  rw [h] at ht he
  generalize i.operand = o at *
  cases o <;> simp_all [Shape.takes, Shape.effect]

/-- A read-modify-write instruction, by its form. -/
theorem exec_modifies {i : Instr} {op : Byte → Byte → Byte × Byte} (h : shapeOf i.mnemonic = .modifies op) :
    (i.operand = .acc ∧ ∀ s, exec i s = .next (modifyAcc op s)) ∨
      ∃ form, i.operand = .mem form ∧ ∀ s, exec i s = .next (modifyMemory op form s) := by
  have ht := shape_takes i
  have he := exec_eq i
  rw [h] at ht he
  generalize i.operand = o at *
  cases o <;> simp_all [Shape.takes, Shape.effect]

/-- A store instruction, by its form. -/
theorem exec_stores {i : Instr} {value : State → Byte} (h : shapeOf i.mnemonic = .stores value) :
    ∃ form, i.operand = .mem form ∧ ∀ s, exec i s = .next (storeTo (value s) form s) := by
  have ht := shape_takes i
  have he := exec_eq i
  rw [h] at ht he
  generalize i.operand = o at *
  cases o <;> simp_all [Shape.takes, Shape.effect]

end Sys2Proof.Machine
end

