-- ==== Sys2Proof/Laws/HostOps.lean ====
section
/-! SUPPORT. What poking a list of bytes does, said once: which bytes of RAM, and nothing else (20_memory.md R70). And the
first step of a run of steps. -/

namespace Sys2Proof.Machine

/-- Poking a list writes RAM and nothing else. -/
theorem State.pokeBytes_frame (addr : Word) (bytes : List Byte) (s : State) :
    s.pokeBytes addr bytes = { s with ram := (s.pokeBytes addr bytes).ram } := by
  induction bytes generalizing addr s with
  | nil => rfl
  | cons b rest ih => exact ih (addr + 1) (s.poke addr b)

theorem State.pokeBytes_wf {s : State} (h : s.ram.wf = true) (addr : Word) (bytes : List Byte) :
    (s.pokeBytes addr bytes).ram.wf = true := by
  induction bytes generalizing addr s with
  | nil => exact h
  | cons b rest ih => exact ih (State.poke_wf h addr b) (addr + 1)

/-- The last byte of a list is poked last, after the others. -/
theorem State.pokeBytes_append (addr : Word) (bytes : List Byte) (v : Byte) (s : State) :
    s.pokeBytes addr (bytes ++ [v]) =
      (s.pokeBytes addr bytes).poke (BitVec.ofNat 16 (addr.toNat + bytes.length)) v := by
  induction bytes generalizing addr s with
  | nil => simp [State.pokeBytes]
  | cons b rest ih =>
    have h : BitVec.ofNat 16 ((addr + 1).toNat + rest.length) =
        BitVec.ofNat 16 (addr.toNat + (b :: rest).length) := by
      apply BitVec.eq_of_toNat_eq
      have h1 : (1 : Word).toNat = 1 := rfl
      simp only [BitVec.toNat_ofNat, BitVec.toNat_add, List.length_cons, h1]
      omega
    exact (ih (addr + 1) (s.poke addr b)).trans (by rw [h]; rfl)

/-- What each byte of RAM reads after poking a list that does not come round to its own start. -/
theorem State.peek_pokeBytes {s : State} (h : s.ram.wf = true) (addr : Word) (bytes : List Byte)
    (hl : bytes.length ≤ 65536) (b : Word) :
    (s.pokeBytes addr bytes).peek b = (bytes[(b.toNat + 65536 - addr.toNat) % 65536]?).getD (s.peek b) := by
  induction bytes using List.reverseRecOn with
  | nil => simp [State.pokeBytes]
  | append_singleton rest v ih =>
    simp only [List.length_append, List.length_singleton] at hl
    have hb := b.isLt
    have ha := addr.isLt
    have hiff : b = BitVec.ofNat 16 (addr.toNat + rest.length) ↔
        (b.toNat + 65536 - addr.toNat) % 65536 = rest.length := by
      rw [← BitVec.toNat_inj, BitVec.toNat_ofNat]
      omega
    rw [State.pokeBytes_append, State.peek_poke (State.pokeBytes_wf h addr rest), ih (by omega)]
    by_cases hk : b = BitVec.ofNat 16 (addr.toNat + rest.length)
    · rw [if_pos hk, hiff.1 hk]
      simp
    · rw [if_neg hk]
      have hne := fun e => hk (hiff.2 e)
      rcases Nat.lt_or_ge ((b.toNat + 65536 - addr.toNat) % 65536) rest.length with hlt | hge
      · rw [List.getElem?_append_left hlt]
      · have hgt : (rest ++ [v]).length ≤ (b.toNat + 65536 - addr.toNat) % 65536 := by
          rw [List.length_append, List.length_singleton]
          exact Nat.lt_of_le_of_ne hge (Ne.symm hne)
        rw [List.getElem?_eq_none hge, List.getElem?_eq_none hgt]

/-- A run of steps takes its first step first, on any machine. -/
theorem run_succ (M : Host.Core) {s t : M.State} (h : M.step s = .next t) (k : Nat) : M.run (k + 1) s = M.run k t := by
  simp only [Host.Core.run, h]

/-- The same of this machine, with its own `step`. -/
theorem core_run_succ {s t : State} (h : step s = .next t) (k : Nat) : core.run (k + 1) s = core.run k t :=
  run_succ core h k

end Sys2Proof.Machine
end

