-- ==== Sys2Proof/Tests/Slice0.lean ====
section
/-! SUPPORT. Tests: decoding from words written out from the spec, one-step vectors of spec/95_test_vectors.md, and a witness
for the hypotheses of each obligation. -/

open Sys2Proof Sys2Proof.Machine

namespace Sys2Proof.Tests

-- One theorem after another: each `decide +kernel` waits for the one before it, and waiting threads use up the memory.
set_option Elab.async false

/-! ## Small states (95_test_vectors.md section 1) -/

/-- The default start state of the vectors. -/
def start : State :=
  { State.reset with sp := 0xFF, p := 0x20, pc := 0x0800 }

/-- RAM with some bytes changed. -/
def ramWith (cells : List (Word × Byte)) (s : State) : State :=
  cells.foldl (fun s cell => s.poke cell.1 cell.2) s

/-- Some cells in RAM, then code at PC. -/
def placed (code : List Byte) (cells : List (Word × Byte)) (s : State) : State :=
  (ramWith cells s).pokeBytes s.pc code

/-- A number of steps; a step that is no next state leaves the state. -/
def steps : Nat → State → State
  | 0, s => s
  | n + 1, s =>
    match step s with
    | .next t => steps n t
    | .fault _ => s
    | .refused _ => s

/-- Two states have the same registers, RAM, RUN and environment record. -/
def same (s t : State) : Bool :=
  s.a == t.a && s.x == t.x && s.y == t.y && s.sp == t.sp && s.pc == t.pc && s.p == t.p && s.ram == t.ram &&
    s.run == t.run && s.ioIn == t.ioIn && s.ioDraws == t.ioDraws && s.ioLog == t.ioLog

/-- A vector: after `n` steps from `s` with the code and cells placed, the state is the start changed as said. -/
def ends (n : Nat) (code : List Byte) (s : State) (cells : List (Word × Byte)) (change : State → State)
    (writes : List (Word × Byte)) : Bool :=
  let s := placed code cells s
  same (steps n s) (ramWith writes (change s))

/-! ## Decoding: every constructor from a word written out from the matrix -/

/-- Row 0x of the matrix of 30_encoding.md R96: each word's first byte is the opcode, then operand 34H or 1234H. -/
theorem test_decode_row_0 :
    [(8, 0x00), (16, 0x3401), (16, 0x3405), (16, 0x3406), (8, 0x08), (16, 0x3409), (8, 0x0A), (24, 0x12340D),
      (24, 0x12340E)].map
      (fun w : Nat × Nat => decodeTableWord w.1 w.2) =
    [some .brk, some (.oraIndx 0x34), some (.oraZp 0x34), some (.aslZp 0x34), some .php, some (.oraImm 0x34),
      some .aslAcc, some (.oraAbs 0x1234), some (.aslAbs 0x1234)] := by
  decide +kernel

/-- Row 1x of the matrix of 30_encoding.md R96: each word's first byte is the opcode, then operand 34H or 1234H. -/
theorem test_decode_row_1 :
    [(16, 0x3410), (16, 0x3411), (16, 0x3415), (16, 0x3416), (8, 0x18), (24, 0x123419), (24, 0x12341D),
      (24, 0x12341E)].map
      (fun w : Nat × Nat => decodeTableWord w.1 w.2) =
    [some (.bpl 0x34), some (.oraIndy 0x34), some (.oraZpx 0x34), some (.aslZpx 0x34), some .clc,
      some (.oraAbsy 0x1234), some (.oraAbsx 0x1234), some (.aslAbsx 0x1234)] := by
  decide +kernel

/-- Row 2x of the matrix of 30_encoding.md R96: each word's first byte is the opcode, then operand 34H or 1234H. -/
theorem test_decode_row_2 :
    [(24, 0x123420), (16, 0x3421), (16, 0x3424), (16, 0x3425), (16, 0x3426), (8, 0x28), (16, 0x3429), (8, 0x2A),
      (24, 0x12342C), (24, 0x12342D), (24, 0x12342E)].map
      (fun w : Nat × Nat => decodeTableWord w.1 w.2) =
    [some (.jsr 0x1234), some (.andIndx 0x34), some (.bitZp 0x34), some (.andZp 0x34), some (.rolZp 0x34),
      some .plp, some (.andImm 0x34), some .rolAcc, some (.bitAbs 0x1234), some (.andAbs 0x1234),
      some (.rolAbs 0x1234)] := by
  decide +kernel

/-- Row 3x of the matrix of 30_encoding.md R96: each word's first byte is the opcode, then operand 34H or 1234H. -/
theorem test_decode_row_3 :
    [(16, 0x3430), (16, 0x3431), (16, 0x3435), (16, 0x3436), (8, 0x38), (24, 0x123439), (24, 0x12343D),
      (24, 0x12343E)].map
      (fun w : Nat × Nat => decodeTableWord w.1 w.2) =
    [some (.bmi 0x34), some (.andIndy 0x34), some (.andZpx 0x34), some (.rolZpx 0x34), some .sec,
      some (.andAbsy 0x1234), some (.andAbsx 0x1234), some (.rolAbsx 0x1234)] := by
  decide +kernel

/-- Row 4x of the matrix of 30_encoding.md R96: each word's first byte is the opcode, then operand 34H or 1234H. -/
theorem test_decode_row_4 :
    [(8, 0x40), (16, 0x3441), (16, 0x3445), (16, 0x3446), (8, 0x48), (16, 0x3449), (8, 0x4A), (24, 0x12344C),
      (24, 0x12344D), (24, 0x12344E)].map
      (fun w : Nat × Nat => decodeTableWord w.1 w.2) =
    [some .rti, some (.eorIndx 0x34), some (.eorZp 0x34), some (.lsrZp 0x34), some .pha, some (.eorImm 0x34),
      some .lsrAcc, some (.jmpAbs 0x1234), some (.eorAbs 0x1234), some (.lsrAbs 0x1234)] := by
  decide +kernel

/-- Row 5x of the matrix of 30_encoding.md R96: each word's first byte is the opcode, then operand 34H or 1234H. -/
theorem test_decode_row_5 :
    [(16, 0x3450), (16, 0x3451), (16, 0x3455), (16, 0x3456), (8, 0x58), (24, 0x123459), (24, 0x12345D),
      (24, 0x12345E)].map
      (fun w : Nat × Nat => decodeTableWord w.1 w.2) =
    [some (.bvc 0x34), some (.eorIndy 0x34), some (.eorZpx 0x34), some (.lsrZpx 0x34), some .cli,
      some (.eorAbsy 0x1234), some (.eorAbsx 0x1234), some (.lsrAbsx 0x1234)] := by
  decide +kernel

/-- Row 6x of the matrix of 30_encoding.md R96: each word's first byte is the opcode, then operand 34H or 1234H. -/
theorem test_decode_row_6 :
    [(8, 0x60), (16, 0x3461), (16, 0x3465), (16, 0x3466), (8, 0x68), (16, 0x3469), (8, 0x6A), (24, 0x12346C),
      (24, 0x12346D), (24, 0x12346E)].map
      (fun w : Nat × Nat => decodeTableWord w.1 w.2) =
    [some .rts, some (.adcIndx 0x34), some (.adcZp 0x34), some (.rorZp 0x34), some .pla, some (.adcImm 0x34),
      some .rorAcc, some (.jmpInd 0x1234), some (.adcAbs 0x1234), some (.rorAbs 0x1234)] := by
  decide +kernel

/-- Row 7x of the matrix of 30_encoding.md R96: each word's first byte is the opcode, then operand 34H or 1234H. -/
theorem test_decode_row_7 :
    [(16, 0x3470), (16, 0x3471), (16, 0x3475), (16, 0x3476), (8, 0x78), (24, 0x123479), (24, 0x12347D),
      (24, 0x12347E)].map
      (fun w : Nat × Nat => decodeTableWord w.1 w.2) =
    [some (.bvs 0x34), some (.adcIndy 0x34), some (.adcZpx 0x34), some (.rorZpx 0x34), some .sei,
      some (.adcAbsy 0x1234), some (.adcAbsx 0x1234), some (.rorAbsx 0x1234)] := by
  decide +kernel

/-- Row 8x of the matrix of 30_encoding.md R96: each word's first byte is the opcode, then operand 34H or 1234H. -/
theorem test_decode_row_8 :
    [(16, 0x3481), (16, 0x3484), (16, 0x3485), (16, 0x3486), (8, 0x88), (8, 0x8A), (24, 0x12348C), (24, 0x12348D),
      (24, 0x12348E)].map
      (fun w : Nat × Nat => decodeTableWord w.1 w.2) =
    [some (.staIndx 0x34), some (.styZp 0x34), some (.staZp 0x34), some (.stxZp 0x34), some .dey, some .txa,
      some (.styAbs 0x1234), some (.staAbs 0x1234), some (.stxAbs 0x1234)] := by
  decide +kernel

/-- Row 9x of the matrix of 30_encoding.md R96: each word's first byte is the opcode, then operand 34H or 1234H. -/
theorem test_decode_row_9 :
    [(16, 0x3490), (16, 0x3491), (16, 0x3494), (16, 0x3495), (16, 0x3496), (8, 0x98), (24, 0x123499), (8, 0x9A),
      (24, 0x12349D)].map
      (fun w : Nat × Nat => decodeTableWord w.1 w.2) =
    [some (.bcc 0x34), some (.staIndy 0x34), some (.styZpx 0x34), some (.staZpx 0x34), some (.stxZpy 0x34),
      some .tya, some (.staAbsy 0x1234), some .txs, some (.staAbsx 0x1234)] := by
  decide +kernel

/-- Row Ax of the matrix of 30_encoding.md R96: each word's first byte is the opcode, then operand 34H or 1234H. -/
theorem test_decode_row_A :
    [(16, 0x34A0), (16, 0x34A1), (16, 0x34A2), (16, 0x34A4), (16, 0x34A5), (16, 0x34A6), (8, 0xA8), (16, 0x34A9),
      (8, 0xAA), (24, 0x1234AC), (24, 0x1234AD), (24, 0x1234AE)].map
      (fun w : Nat × Nat => decodeTableWord w.1 w.2) =
    [some (.ldyImm 0x34), some (.ldaIndx 0x34), some (.ldxImm 0x34), some (.ldyZp 0x34), some (.ldaZp 0x34),
      some (.ldxZp 0x34), some .tay, some (.ldaImm 0x34), some .tax, some (.ldyAbs 0x1234), some (.ldaAbs 0x1234),
      some (.ldxAbs 0x1234)] := by
  decide +kernel

/-- Row Bx of the matrix of 30_encoding.md R96: each word's first byte is the opcode, then operand 34H or 1234H. -/
theorem test_decode_row_B :
    [(16, 0x34B0), (16, 0x34B1), (16, 0x34B4), (16, 0x34B5), (16, 0x34B6), (8, 0xB8), (24, 0x1234B9), (8, 0xBA),
      (24, 0x1234BC), (24, 0x1234BD), (24, 0x1234BE)].map
      (fun w : Nat × Nat => decodeTableWord w.1 w.2) =
    [some (.bcs 0x34), some (.ldaIndy 0x34), some (.ldyZpx 0x34), some (.ldaZpx 0x34), some (.ldxZpy 0x34),
      some .clv, some (.ldaAbsy 0x1234), some .tsx, some (.ldyAbsx 0x1234), some (.ldaAbsx 0x1234),
      some (.ldxAbsy 0x1234)] := by
  decide +kernel

/-- Row Cx of the matrix of 30_encoding.md R96: each word's first byte is the opcode, then operand 34H or 1234H. -/
theorem test_decode_row_C :
    [(16, 0x34C0), (16, 0x34C1), (16, 0x34C4), (16, 0x34C5), (16, 0x34C6), (8, 0xC8), (16, 0x34C9), (8, 0xCA),
      (24, 0x1234CC), (24, 0x1234CD), (24, 0x1234CE)].map
      (fun w : Nat × Nat => decodeTableWord w.1 w.2) =
    [some (.cpyImm 0x34), some (.cmpIndx 0x34), some (.cpyZp 0x34), some (.cmpZp 0x34), some (.decZp 0x34),
      some .iny, some (.cmpImm 0x34), some .dex, some (.cpyAbs 0x1234), some (.cmpAbs 0x1234), some (.decAbs 0x1234)] := by
  decide +kernel

/-- Row Dx of the matrix of 30_encoding.md R96: each word's first byte is the opcode, then operand 34H or 1234H. -/
theorem test_decode_row_D :
    [(16, 0x34D0), (16, 0x34D1), (16, 0x34D5), (16, 0x34D6), (8, 0xD8), (24, 0x1234D9), (24, 0x1234DD),
      (24, 0x1234DE)].map
      (fun w : Nat × Nat => decodeTableWord w.1 w.2) =
    [some (.bne 0x34), some (.cmpIndy 0x34), some (.cmpZpx 0x34), some (.decZpx 0x34), some .cld,
      some (.cmpAbsy 0x1234), some (.cmpAbsx 0x1234), some (.decAbsx 0x1234)] := by
  decide +kernel

/-- Row Ex of the matrix of 30_encoding.md R96: each word's first byte is the opcode, then operand 34H or 1234H. -/
theorem test_decode_row_E :
    [(16, 0x34E0), (16, 0x34E1), (16, 0x34E4), (16, 0x34E5), (16, 0x34E6), (8, 0xE8), (16, 0x34E9), (8, 0xEA),
      (24, 0x1234EC), (24, 0x1234ED), (24, 0x1234EE)].map
      (fun w : Nat × Nat => decodeTableWord w.1 w.2) =
    [some (.cpxImm 0x34), some (.sbcIndx 0x34), some (.cpxZp 0x34), some (.sbcZp 0x34), some (.incZp 0x34),
      some .inx, some (.sbcImm 0x34), some .nop, some (.cpxAbs 0x1234), some (.sbcAbs 0x1234), some (.incAbs 0x1234)] := by
  decide +kernel

/-- Row Fx of the matrix of 30_encoding.md R96: each word's first byte is the opcode, then operand 34H or 1234H. -/
theorem test_decode_row_F :
    [(16, 0x34F0), (16, 0x34F1), (16, 0x34F5), (16, 0x34F6), (8, 0xF8), (24, 0x1234F9), (24, 0x1234FD),
      (24, 0x1234FE)].map
      (fun w : Nat × Nat => decodeTableWord w.1 w.2) =
    [some (.beq 0x34), some (.sbcIndy 0x34), some (.sbcZpx 0x34), some (.incZpx 0x34), some .sed,
      some (.sbcAbsy 0x1234), some (.sbcAbsx 0x1234), some (.incAbsx 0x1234)] := by
  decide +kernel

/-! ## One-step vectors of 95_test_vectors.md, at most two for an instruction; the name is the vector's id -/

theorem test_s1_7 : ends 1 [0x69, 0x90] { start with a := 0xD0 } []
    (fun s => { s with a := 0x60, p := 0x61, pc := 0x0802 }) [] = true := by decide +kernel

theorem test_ad9 : ends 1 [0x69, 0xFF] { start with a := 0xFF, p := 0x21 } []
    (fun s => { s with a := 0xFF, p := 0xA1, pc := 0x0802 }) [] = true := by decide +kernel

theorem test_sb9 : ends 1 [0xE9, 0xFF] { start with a := 0x7F, p := 0x21 } []
    (fun s => { s with a := 0x80, p := 0xE0, pc := 0x0802 }) [] = true := by decide +kernel

theorem test_sb11 : ends 1 [0xE9, 0x05] { start with a := 0x05, p := 0x20 } []
    (fun s => { s with a := 0xFF, p := 0xA0, pc := 0x0802 }) [] = true := by decide +kernel

theorem test_dm1 : ends 1 [0x69, 0x01] { start with a := 0x09, p := 0x28 } []
    (fun s => { s with a := 0x0A, p := 0x28, pc := 0x0802 }) [] = true := by decide +kernel

theorem test_dm3 : ends 1 [0xE9, 0x01] { start with a := 0x10, p := 0x29 } []
    (fun s => { s with a := 0x0F, p := 0x29, pc := 0x0802 }) [] = true := by decide +kernel

theorem test_lg2 : ends 1 [0x09, 0x00] { start with a := 0x00, p := 0xA0 } []
    (fun s => { s with p := 0x22, pc := 0x0802 }) [] = true := by decide +kernel

theorem test_lg4 : ends 1 [0x29, 0x00] { start with a := 0xFF, p := 0xE1 } []
    (fun s => { s with a := 0x00, p := 0x63, pc := 0x0802 }) [] = true := by decide +kernel

theorem test_lg9 : ends 1 [0x51, 0x86] { start with a := 0xFF, y := 0x02 } [(0x0086, 0x00), (0x0087, 0x30), (0x3002, 0x0F)]
    (fun s => { s with a := 0xF0, p := 0xA0, pc := 0x0802 }) [] = true := by decide +kernel

theorem test_cp5 : ends 1 [0xC9, 0x01] { start with a := 0x80 } []
    (fun s => { s with p := 0x21, pc := 0x0802 }) [] = true := by decide +kernel

theorem test_cp8 : ends 1 [0xC5, 0x10] { start with a := 0x10, p := 0x21 } [(0x0010, 0x11)]
    (fun s => { s with p := 0xA0, pc := 0x0802 }) [] = true := by decide +kernel

theorem test_cp10 : ends 1 [0xE0, 0x06] { start with x := 0x05 } []
    (fun s => { s with p := 0xA0, pc := 0x0802 }) [] = true := by decide +kernel

theorem test_cp13 : ends 1 [0xC4, 0x10] { start with y := 0xFF } [(0x0010, 0x00)]
    (fun s => { s with p := 0xA1, pc := 0x0802 }) [] = true := by decide +kernel

theorem test_bt2 : ends 1 [0x24, 0x10] { start with a := 0x3F } [(0x0010, 0xC0)]
    (fun s => { s with p := 0xE2, pc := 0x0802 }) [] = true := by decide +kernel

theorem test_bt4 : ends 1 [0x2C, 0x00, 0x30] { start with a := 0xFF } [(0x3000, 0x80)]
    (fun s => { s with p := 0xA0, pc := 0x0803 }) [] = true := by decide +kernel

theorem test_sh2 : ends 1 [0x0A] { start with a := 0xFF, p := 0x21 } []
    (fun s => { s with a := 0xFE, p := 0xA1, pc := 0x0801 }) [] = true := by decide +kernel

theorem test_sh4 : ends 1 [0x0E, 0x00, 0x30] start [(0x3000, 0x81)]
    (fun s => { s with p := 0x21, pc := 0x0803 }) [(0x3000, 0x02)] = true := by decide +kernel

theorem test_sh7 : ends 1 [0x4A] { start with a := 0x80, p := 0xA1 } []
    (fun s => { s with a := 0x40, p := 0x20, pc := 0x0801 }) [] = true := by decide +kernel

theorem test_sh8 : ends 1 [0x56, 0x10] { start with x := 0x01 } [(0x0011, 0xFF)]
    (fun s => { s with p := 0x21, pc := 0x0802 }) [(0x0011, 0x7F)] = true := by decide +kernel

theorem test_sh9 : ends 1 [0x2A] { start with a := 0x55, p := 0x21 } []
    (fun s => { s with a := 0xAB, p := 0xA0, pc := 0x0801 }) [] = true := by decide +kernel

theorem test_sh13 : ends 1 [0x26, 0x10] { start with p := 0x20 } [(0x0010, 0xC0)]
    (fun s => { s with p := 0xA1, pc := 0x0802 }) [(0x0010, 0x80)] = true := by decide +kernel

theorem test_sh17 : ends 1 [0x6A] { start with a := 0x00, p := 0x21 } []
    (fun s => { s with a := 0x80, p := 0xA0, pc := 0x0801 }) [] = true := by decide +kernel

theorem test_sh18 : ends 1 [0x7E, 0x00, 0x30] { start with x := 0x02, p := 0x20 } [(0x3002, 0xFE)]
    (fun s => { s with p := 0x20, pc := 0x0803 }) [(0x3002, 0x7F)] = true := by decide +kernel

theorem test_id2 : ends 1 [0xE6, 0x10] { start with p := 0x61 } [(0x0010, 0xFF)]
    (fun s => { s with p := 0x63, pc := 0x0802 }) [(0x0010, 0x00)] = true := by decide +kernel

theorem test_id4 : ends 1 [0xFE, 0x00, 0x30] { start with x := 0x01 } [(0x3001, 0xFE)]
    (fun s => { s with p := 0xA0, pc := 0x0803 }) [(0x3001, 0xFF)] = true := by decide +kernel

theorem test_id6 : ends 1 [0xCE, 0x34, 0x12] start [(0x1234, 0x01)]
    (fun s => { s with p := 0x22, pc := 0x0803 }) [(0x1234, 0x00)] = true := by decide +kernel

theorem test_id7 : ends 1 [0xD6, 0x10] { start with x := 0xFF } [(0x000F, 0x80)]
    (fun s => { s with p := 0x20, pc := 0x0802 }) [(0x000F, 0x7F)] = true := by decide +kernel

theorem test_id9 : ends 1 [0xE8] { start with x := 0xFF } []
    (fun s => { s with x := 0x00, p := 0x22, pc := 0x0801 }) [] = true := by decide +kernel

theorem test_id12 : ends 1 [0xC8] { start with y := 0xFF } []
    (fun s => { s with y := 0x00, p := 0x22, pc := 0x0801 }) [] = true := by decide +kernel

theorem test_id14 : ends 1 [0xCA] { start with x := 0x00 } []
    (fun s => { s with x := 0xFF, p := 0xA0, pc := 0x0801 }) [] = true := by decide +kernel

theorem test_id15 : ends 1 [0x88] { start with y := 0x00 } []
    (fun s => { s with y := 0xFF, p := 0xA0, pc := 0x0801 }) [] = true := by decide +kernel

theorem test_am11 : ends 1 [0xA1, 0xFF] { start with x := 0x00 } [(0x00FF, 0x34), (0x0100, 0x12), (0x1234, 0x42), (0x0034, 0x99)]
    (fun s => { s with a := 0x42, p := 0x20, pc := 0x0802 }) [] = true := by decide +kernel

theorem test_am14 : ends 1 [0xB1, 0xFF] { start with y := 0x01 } [(0x00FF, 0xFF), (0x0100, 0xFF), (0x0000, 0x21)]
    (fun s => { s with a := 0x21, p := 0x20, pc := 0x0802 }) [] = true := by decide +kernel

theorem test_am4 : ends 1 [0xB6, 0xFF] { start with y := 0x03 } [(0x0002, 0x44)]
    (fun s => { s with x := 0x44, p := 0x20, pc := 0x0802 }) [] = true := by decide +kernel

theorem test_ls5 : ends 1 [0xBC, 0x00, 0x30] { start with x := 0x05 } [(0x3005, 0x7F)]
    (fun s => { s with y := 0x7F, p := 0x20, pc := 0x0803 }) [] = true := by decide +kernel

theorem test_ls9 : ends 1 [0x94, 0xFF] { start with x := 0x03, y := 0xFF } []
    (fun s => { s with p := 0x20, pc := 0x0802 }) [(0x0002, 0xFF)] = true := by decide +kernel

theorem test_ls10 : ends 1 [0x96, 0x10] { start with x := 0x77, y := 0x01 } []
    (fun s => { s with p := 0x20, pc := 0x0802 }) [(0x0011, 0x77)] = true := by decide +kernel

theorem test_ls12 : ends 1 [0x91, 0x86] { start with a := 0xA5, y := 0x10 } [(0x0086, 0xF8), (0x0087, 0x3F)]
    (fun s => { s with p := 0x20, pc := 0x0802 }) [(0x4008, 0xA5)] = true := by decide +kernel

theorem test_ls14 : ends 1 [0x9D, 0x00, 0xA0] { start with a := 0x99, x := 0x01 } [(0x0001, 0x07)]
    (fun s => { s with p := 0x20, pc := 0x0803 }) [(0xA001, 0x99)] = true := by decide +kernel

theorem test_tr1 : ends 1 [0xAA] { start with a := 0x80 } []
    (fun s => { s with x := 0x80, p := 0xA0, pc := 0x0801 }) [] = true := by decide +kernel

theorem test_tr2 : ends 1 [0x8A] { start with a := 0x55, x := 0x00 } []
    (fun s => { s with a := 0x00, p := 0x22, pc := 0x0801 }) [] = true := by decide +kernel

theorem test_tr3 : ends 1 [0xA8] { start with a := 0x7F } []
    (fun s => { s with y := 0x7F, p := 0x20, pc := 0x0801 }) [] = true := by decide +kernel

theorem test_tr4 : ends 1 [0x98] { start with y := 0xFF } []
    (fun s => { s with a := 0xFF, p := 0xA0, pc := 0x0801 }) [] = true := by decide +kernel

theorem test_tr5 : ends 1 [0xBA] { start with sp := 0xFD, p := 0x22 } []
    (fun s => { s with x := 0xFD, p := 0x22, pc := 0x0801 }) [] = true := by decide +kernel

theorem test_tr6 : ends 1 [0xBA] { start with x := 0x55, sp := 0x00, p := 0x20 } []
    (fun s => { s with x := 0x00, p := 0x20, pc := 0x0801 }) [] = true := by decide +kernel

theorem test_tr7 : ends 1 [0x9A] { start with x := 0x00, sp := 0xFF, p := 0x20 } []
    (fun s => { s with sp := 0x00, p := 0x20, pc := 0x0801 }) [] = true := by decide +kernel

theorem test_fl1 : ends 1 [0x18] { start with p := 0xFF } []
    (fun s => { s with p := 0xFE, pc := 0x0801 }) [] = true := by decide +kernel

theorem test_fl2 : ends 1 [0x38] { start with p := 0x20 } []
    (fun s => { s with p := 0x21, pc := 0x0801 }) [] = true := by decide +kernel

theorem test_fl3 : ends 1 [0x58] { start with p := 0xFF } []
    (fun s => { s with p := 0xFB, pc := 0x0801 }) [] = true := by decide +kernel

theorem test_fl4 : ends 1 [0x78] { start with p := 0x20 } []
    (fun s => { s with p := 0x24, pc := 0x0801 }) [] = true := by decide +kernel

theorem test_fl5 : ends 1 [0xD8] { start with p := 0xFF } []
    (fun s => { s with p := 0xF7, pc := 0x0801 }) [] = true := by decide +kernel

theorem test_fl6 : ends 1 [0xF8] { start with p := 0x20 } []
    (fun s => { s with p := 0x28, pc := 0x0801 }) [] = true := by decide +kernel

theorem test_fl7 : ends 1 [0xB8] { start with p := 0xFF } []
    (fun s => { s with p := 0xBF, pc := 0x0801 }) [] = true := by decide +kernel

theorem test_br1 : ends 1 [0x10, 0x05] { start with pc := 0x0810, p := 0x20 } []
    (fun s => { s with p := 0x20, pc := 0x0817 }) [] = true := by decide +kernel

theorem test_br2 : ends 1 [0x10, 0x05] { start with pc := 0x0810, p := 0xA0 } []
    (fun s => { s with p := 0xA0, pc := 0x0812 }) [] = true := by decide +kernel

theorem test_br3 : ends 1 [0x30, 0xFA] { start with pc := 0x0810, p := 0xA0 } []
    (fun s => { s with p := 0xA0, pc := 0x080C }) [] = true := by decide +kernel

theorem test_br4 : ends 1 [0x30, 0xFA] { start with pc := 0x0810, p := 0x20 } []
    (fun s => { s with p := 0x20, pc := 0x0812 }) [] = true := by decide +kernel

theorem test_br5 : ends 1 [0x50, 0x10] { start with pc := 0x0810, p := 0x20 } []
    (fun s => { s with p := 0x20, pc := 0x0822 }) [] = true := by decide +kernel

theorem test_br6 : ends 1 [0x50, 0x10] { start with pc := 0x0810, p := 0x60 } []
    (fun s => { s with p := 0x60, pc := 0x0812 }) [] = true := by decide +kernel

theorem test_br7 : ends 1 [0x70, 0x10] { start with pc := 0x0810, p := 0x60 } []
    (fun s => { s with p := 0x60, pc := 0x0822 }) [] = true := by decide +kernel

theorem test_br8 : ends 1 [0x70, 0x10] { start with pc := 0x0810, p := 0x20 } []
    (fun s => { s with p := 0x20, pc := 0x0812 }) [] = true := by decide +kernel

theorem test_br9 : ends 1 [0x90, 0x7F] { start with pc := 0x0810, p := 0x20 } []
    (fun s => { s with p := 0x20, pc := 0x0891 }) [] = true := by decide +kernel

theorem test_br10 : ends 1 [0x90, 0x7F] { start with pc := 0x0810, p := 0x21 } []
    (fun s => { s with p := 0x21, pc := 0x0812 }) [] = true := by decide +kernel

theorem test_br11 : ends 1 [0xB0, 0x80] { start with pc := 0x0810, p := 0x21 } []
    (fun s => { s with p := 0x21, pc := 0x0792 }) [] = true := by decide +kernel

theorem test_br12 : ends 1 [0xB0, 0x80] { start with pc := 0x0810, p := 0x20 } []
    (fun s => { s with p := 0x20, pc := 0x0812 }) [] = true := by decide +kernel

theorem test_br16 : ends 1 [0xD0, 0x00] { start with pc := 0xFFFE, p := 0x20 } []
    (fun s => { s with p := 0x20, pc := 0x0000 }) [] = true := by decide +kernel

theorem test_br17 : ends 1 [0xD0, 0x80] { start with pc := 0x0000, p := 0x20 } []
    (fun s => { s with p := 0x20, pc := 0xFF82 }) [] = true := by decide +kernel

theorem test_br14 : ends 1 [0xF0, 0x02] { start with pc := 0x0810, p := 0x22 } []
    (fun s => { s with p := 0x22, pc := 0x0814 }) [] = true := by decide +kernel

theorem test_br15 : ends 1 [0xF0, 0x02] { start with pc := 0x0810, p := 0x20 } []
    (fun s => { s with p := 0x20, pc := 0x0812 }) [] = true := by decide +kernel

theorem test_st2 : ends 1 [0x48] { start with a := 0x42, sp := 0x00 } []
    (fun s => { s with sp := 0xFF, p := 0x20, pc := 0x0801 }) [(0x0100, 0x42)] = true := by decide +kernel

theorem test_st4 : ends 1 [0x68] { start with a := 0x11, sp := 0xFF, p := 0x20 } [(0x0100, 0x00)]
    (fun s => { s with a := 0x00, sp := 0x00, p := 0x22, pc := 0x0801 }) [] = true := by decide +kernel

theorem test_st6 : ends 1 [0x08] { start with sp := 0xFF, p := 0x00 } []
    (fun s => { s with sp := 0xFE, p := 0x00, pc := 0x0801 }) [(0x01FF, 0x00)] = true := by decide +kernel

theorem test_st7 : ends 1 [0x28] { start with sp := 0xFE, p := 0x20 } [(0x01FF, 0xC3)]
    (fun s => { s with sp := 0xFF, p := 0xC3, pc := 0x0801 }) [] = true := by decide +kernel

theorem test_sc2 : ends 1 [0x20, 0x00, 0x20] { start with pc := 0x1000, sp := 0x00 } []
    (fun s => { s with sp := 0xFE, p := 0x20, pc := 0x2000 }) [(0x0100, 0x10), (0x01FF, 0x02)] = true := by decide +kernel

theorem test_sc3 : ends 1 [0x20, 0x00, 0x20] { start with pc := 0xFFFE, sp := 0xFF } [(0x0000, 0x20)]
    (fun s => { s with sp := 0xFD, p := 0x20, pc := 0x2000 }) [(0x01FE, 0x00), (0x01FF, 0x00)] = true := by decide +kernel

theorem test_sc4 : ends 1 [0x60] { start with pc := 0x2000, sp := 0xFD } [(0x01FE, 0xFF), (0x01FF, 0xFF)]
    (fun s => { s with sp := 0xFF, p := 0x20, pc := 0x0000 }) [] = true := by decide +kernel

theorem test_sc5 : ends 1 [0x60] { start with pc := 0x2000, sp := 0xFF } [(0x0100, 0x33), (0x0101, 0x12)]
    (fun s => { s with sp := 0x01, p := 0x20, pc := 0x1234 }) [] = true := by decide +kernel

theorem test_am17 : ends 1 [0x6C, 0xFF, 0x12] start [(0x12FF, 0x78), (0x1300, 0x56), (0x1200, 0x99)]
    (fun s => { s with p := 0x20, pc := 0x5678 }) [] = true := by decide +kernel

theorem test_sc6 : ends 1 [0x4C, 0x34, 0x12] start []
    (fun s => { s with p := 0x20, pc := 0x1234 }) [] = true := by decide +kernel

theorem test_sc9 : ends 1 [0x00] { start with pc := 0x0810, sp := 0x01, p := 0xE3 } [(0xFFFE, 0x34), (0xFFFF, 0x12)]
    (fun s => { s with sp := 0xFE, p := 0xF7, pc := 0x1234 }) [(0x0100, 0x12), (0x0101, 0x08), (0x01FF, 0xF7)] = true := by decide +kernel

theorem test_sc10 : ends 1 [0x00] { start with pc := 0x0810, sp := 0xFF, p := 0x20, params := { defaultParams with kernal := [(0x1FFE, 0x48), (0x1FFF, 0xFF)] } } [(0x0001, 0x02), (0xFFFE, 0x00), (0xFFFF, 0x09)]
    (fun s => { s with sp := 0xFC, p := 0x34, pc := 0xFF48 }) [(0x01FD, 0x34), (0x01FE, 0x12), (0x01FF, 0x08)] = true := by decide +kernel

theorem test_sc11 : ends 1 [0x40] { start with pc := 0x0900, sp := 0xFC, p := 0x20 } [(0x01FD, 0x34), (0x01FE, 0x12), (0x01FF, 0x08)]
    (fun s => { s with sp := 0xFF, p := 0x34, pc := 0x0812 }) [] = true := by decide +kernel

theorem test_sc12 : ends 1 [0x40] { start with pc := 0x0900, sp := 0xFC, p := 0xFF } [(0x01FD, 0x00), (0x01FE, 0xFF), (0x01FF, 0xFF)]
    (fun s => { s with sp := 0xFF, p := 0x00, pc := 0xFFFF }) [] = true := by decide +kernel

theorem test_bw3 : ends 1 [0x8D, 0x20, 0xD0] { start with a := 0x0E } [(0x0001, 0x07)]
    (fun s => { s with p := 0x20, pc := 0x0803, ioLog := [.write .video 0xD020 0 0x0E] }) [] = true := by decide +kernel

theorem test_bw8 : ends 1 [0xAD, 0x12, 0xD0] { start with ioIn := [0x9C] } [(0x0001, 0x07)]
    (fun s => { s with a := 0x9C, p := 0xA0, pc := 0x0803, ioLog := [.read .video 0xD012 0 0x9C], ioIn := [] }) [] = true := by decide +kernel

theorem test_bw10 : ends 1 [0xEE, 0x20, 0xD0] { start with ioIn := [0x0F] } [(0x0001, 0x07)]
    (fun s => { s with p := 0x20, pc := 0x0803, ioLog := [.read .video 0xD020 0 0x0F, .write .video 0xD020 0 0x10], ioIn := [] }) [] = true := by decide +kernel

theorem test_bw9 : ends 1 [0xEE, 0x00, 0xA0] { start with params := { defaultParams with basic := [(0x0000, 0xBA)] } } [(0x0001, 0x01), (0xA000, 0x1A)]
    (fun s => { s with p := 0xA0, pc := 0x0803 }) [(0xA000, 0xBB)] = true := by decide +kernel

theorem test_il1 : ends 1 [0x02] { start with a := 0x11, x := 0x22, y := 0x33, sp := 0x44, p := 0x65 } []
    (fun s => { s with p := 0x65, pc := 0x0800, run := .halted 0x0800 0x02 }) [] = true := by decide +kernel

theorem test_il5 : ends 1 [0xAD, 0x00, 0xA0] { start with pc := 0xA000, params := { defaultParams with basic := [(0x0000, 0x03)] } } [(0x0001, 0x01)]
    (fun s => { s with p := 0x20, pc := 0xA000, run := .halted 0xA000 0x03 }) [] = true := by decide +kernel

theorem test_np1 : ends 1 [0xEA] { start with a := 0x12, p := 0xE3 } []
    (fun s => { s with p := 0xE3, pc := 0x0801 }) [] = true := by decide +kernel

/-! ## Host operations (95_test_vectors.md sections 12.4, 12.5; 00_scope.md R7) -/

/-- The kernal and port of vector RS2. -/
def kernalStart : State :=
  { start with
    ram := [(0x0001, 0x02), (0xFFFD, 0x08)]
    params := { defaultParams with kernal := [(0x1FFD, 0xE0)] } }

/-- RS1, RS2 and RS3: the vector through the banked bus, and the halted condition ended. -/
theorem test_reset :
    ({ start with a := 0x11, pc := 0x1234, ram := [(0xFFFD, 0x08)] } : State).hostReset =
      { start with a := 0x11, pc := 0x0800, ram := [(0xFFFD, 0x08)] } ∧
    kernalStart.hostReset.pc = 0xE000 ∧
    ({ start with run := .halted 0x0800 0x02, ram := [(0xFFFD, 0x09)] } : State).hostReset =
      { start with pc := 0x0900, ram := [(0xFFFD, 0x09)] } := by
  decide +kernel

/-- LP1, LP5 and LP7: the payload goes to RAM at its load address. -/
theorem test_load_program :
    start.loadProgram [0x01, 0x08, 0xA9, 0x05] = .ok { start with ram := [(0x0801, 0xA9), (0x0802, 0x05)] } ∧
    start.loadProgram [0xFE, 0xFF, 0x11, 0x22] = .ok { start with ram := [(0xFFFE, 0x11), (0xFFFF, 0x22)] } ∧
    start.loadProgram [0x00, 0xA0, 0x77] = .ok { start with ram := [(0xA000, 0x77)] } :=
  ⟨rfl, rfl, rfl⟩

/-- LP3, LP4 and LP6: the two refusals. -/
theorem test_load_program_refuses :
    start.loadProgram [0x00] = .error .malformedProgram ∧ start.loadProgram [] = .error .malformedProgram ∧
    start.loadProgram [0xFE, 0xFF, 0x11, 0x22, 0x33] = .error .loadOverflow :=
  ⟨rfl, rfl, rfl⟩

/-- The matrix of 95_test_vectors.md section 12.1, columns 0xA000, 0xD000, 0xE000, 0x9FFF and 0xC000. -/
theorem test_bank_matrix :
    [0, 1, 2, 3, 4, 5, 6, 7].map (fun port : Byte =>
      [0xA000, 0xD000, 0xE000, 0x9FFF, 0xC000].map (fun addr : Word => bankOf port addr)) =
    [[.ram, .ram, .ram, .ram, .ram], [.basic, .chargen, .ram, .ram, .ram], [.basic, .chargen, .kernal, .ram, .ram],
      [.basic, .chargen, .kernal, .ram, .ram], [.ram, .ram, .ram, .ram, .ram], [.basic, .io, .ram, .ram, .ram],
      [.basic, .io, .kernal, .ram, .ram], [.basic, .io, .kernal, .ram, .ram]] := by
  decide +kernel

/-- `disassemble`: the examples of 30_encoding.md R101 for a branch and an indexed pointer. -/
theorem test_disassemble :
    ((placed [0xD0, 0xFE] [] start).disassemble ⟨0xD0, .bne, .rel, 2⟩ 0x0800).1 = "BNE $0800" ∧
    ((placed [0xB1, 0x20] [] start).disassemble ⟨0xB1, .lda, .indy, 5⟩ 0x0800).1 = "LDA ($20),Y" := by
  decide +kernel

/-- The next step after `withFetchWord` runs the word's instruction: from reset, and with PC in a window and on the port. -/
theorem test_with_fetch_word :
    (steps 1 (State.reset.withFetchWord 16 0x42A9)).a = 0x42 ∧
    (steps 1 (State.reset.withFetchWord 24 0x56784C)).pc = 0x5678 ∧
    (steps 1 ({ start with pc := 0xE000, ram := [(0x0001, 0x02)] }.withFetchWord 16 0x42A9)).a = 0x42 ∧
    (steps 1 ({ start with pc := 0xD000, ram := [(0x0001, 0x07)] }.withFetchWord 16 0x42A9)).a = 0x42 ∧
    (steps 1 ({ start with pc := 0x0000, run := .halted 0x0000 0x02 }.withFetchWord 16 0x07A9)).a = 0x07 := by
  decide +kernel

/-! ## WellFormed: each check refuses an ill-formed term -/

/-- A table that lacks the rows of SBC. -/
def tableWithoutSbc : List Row :=
  optable.filter (fun row => row.mnemonic != .sbc)

/-- A legal table in which two opcodes bind NOP. -/
def nopTwice : List Row :=
  [⟨0xEA, .nop, .imp, 2⟩, ⟨0x1A, .nop, .imp, 2⟩]

/-- An instruction is ill-formed under a table that does not populate it. -/
theorem test_ill_formed_instr :
    (Instr.sbcImm 0x01).wellFormedIn tableWithoutSbc = false ∧ (Instr.sbcImm 0x01).wellFormed = true ∧
    encodeWith tableWithoutSbc (.sbcImm 0x01) = none := by
  decide +kernel

/-- A table is ill-formed when an opcode stands in it twice and when a pair is not bound; two opcodes may bind one pair, and
the decoder reads both. -/
theorem test_ill_formed_table :
    tableWellFormed [⟨0xEA, .nop, .imp, 2⟩, ⟨0xEA, .clc, .imp, 2⟩] = false ∧
    tableWellFormed [⟨0x89, .sta, .imm, 2⟩] = false ∧ tableWellFormed nopTwice = true ∧ pairsDistinct nopTwice = false ∧
    (lookup nopTwice 0xEA).isSome = true ∧ (lookup nopTwice 0x1A).isSome = true := by
  decide +kernel

/-- The decoder refuses, by name, an unpopulated opcode, too few bytes and an unbound pair. -/
theorem test_decode_refuses :
    decode [0x02, 0x00] = .error (.illegal 0x02) ∧ decode [0xAD, 0x34] = .error .truncated ∧
    decodeWith [⟨0x89, .sta, .imm, 2⟩] [0x89, 0x00] = .error (.modeNotBound 0x89) :=
  ⟨rfl, rfl, rfl⟩

/-- A parameter set with PORT_ADDR in a window is not legal, and RAM that lists a zero is not canonical. -/
theorem test_ill_formed_machine :
    legalPortAddr 0xA000 = false ∧ legalPortAddr 0xD000 = false ∧ legalPortAddr 0x9FFF = true ∧
    legalPortAddr 0xC000 = true ∧ legalPortAddr 0xCFFF = true ∧ legalPortAddr 0xBFFF = false ∧
    Memory.wf [(0x10, 0)] = false ∧ Memory.wf [(0x11, 1), (0x10, 1)] = false ∧ Memory.wf [(65536, 1)] = false ∧
    Memory.wf [(0x10, 1), (65535, 1)] = true := by
  decide +kernel

/-! ## Witnesses: for each obligation with hypotheses, states and operands that meet them all -/

/-- An outcome is a next state with a property. -/
def nextWith (o : Host.Outcome State Fault Refusal) (p : State → Bool) : Bool :=
  match o with
  | .next t => p t
  | .fault _ => false
  | .refused _ => false

/-- What `nextWith` says. -/
theorem nextWith_exists {o : Host.Outcome State Fault Refusal} {p : State → Bool} (h : nextWith o p = true) :
    ∃ t, o = .next t ∧ p t = true := by
  cases o with
  | next t => exact ⟨t, rfl, h⟩
  | fault _ => exact absurd h (by simp [nextWith])
  | refused _ => exact absurd h (by simp [nextWith])

/-- States whose port selects, at 0xA000, 0xD000 and 0xE000, each storage there is. -/
def portState (port : Byte) : State :=
  { start with ram := [(0x0001, port)] }

/-- A legal table of a few rows of 30_encoding.md R96: it is checked faster than the whole one. -/
def smallTable : List Row :=
  [⟨0xA9, .lda, .imm, 2⟩, ⟨0x6C, .jmp, .ind, 5⟩, ⟨0x48, .pha, .imp, 3⟩, ⟨0xEA, .nop, .imp, 2⟩]

/-- The start state of a machine built with that table. -/
def smallStart : State :=
  { start with params := { defaultParams with optable := smallTable } }

theorem witness_DecodeUndoesEncode :
    opcodesDistinct smallTable = true ∧ opcodesDistinct nopTwice = true ∧ Instr.nop.wellFormedIn nopTwice = true ∧
      (Instr.ldaImm 0x05).wellFormedIn smallTable = true ∧
      (Instr.jmpInd 0xFFFF).wellFormedIn smallTable = true := by
  decide +kernel

theorem witness_EncodeUndoesDecode :
    pairsDistinct smallTable = true ∧ decodeWith smallTable [0xA9, 0x05, 0xEA] = .ok (.ldaImm 0x05, [0xEA]) ∧
      decodeWith nopTwice [0x1A] = .ok (.nop, []) :=
  ⟨by decide +kernel, rfl, rfl⟩

theorem witness_DefaultTableIsLegal : lookup optable 0x02 = none ∧ lookup optable 0xFF = none := by
  decide +kernel

theorem witness_LengthIsToldByTheOpcodeByte :
    lookup optable 0x02 = none ∧ lookup optable 0xA9 = some ⟨0xA9, .lda, .imm, 2⟩ ∧ instrLength optable 0x6C = some 3 ∧
      decodeWith optable [0xA9, 0x05] = .ok (.ldaImm 0x05, []) :=
  ⟨by decide +kernel, by decide +kernel, by decide +kernel, rfl⟩

theorem witness_FlagWritesAreMasked :
    Flag.bit .negative = 7 ∧ (7 : Nat) < 8 ∧ Flag.bit .carry = 0 ∧ (0 : Nat) < 8 := by
  decide

theorem witness_BankDecodeByPortBits : (0x07 : Byte).toNat % 8 = (0xFF : Byte).toNat % 8 := by
  decide

theorem witness_BankIsDerivedFromThePortByteAlone :
    (portState 0x07).peek (portState 0x07).params.portAddr =
      ({ portState 0x07 with a := 0x55, ram := [(0x0001, 0x07), (0xA000, 0x1A)] } : State).peek 0x0001 ∧
    start.ram.wf = true ∧ start.bank start.params.portAddr ≠ .io := by
  decide +kernel

theorem witness_BusReadReturnsTheSelectedByte :
    (portState 0x00).bank 0xA000 = .ram ∧ (portState 0x01).bank 0xA000 = .basic ∧ (portState 0x01).bank 0xBFFF = .basic ∧
    (portState 0x01).bank 0xD000 = .chargen ∧ (portState 0x03).bank 0xDFFF = .chargen ∧
    (portState 0x02).bank 0xE000 = .kernal ∧ (portState 0x02).bank 0xFFFF = .kernal ∧
    (portState 0x05).bank 0xD000 = .io ∧ (portState 0x05).bank 0xDFFF = .io ∧
    ({ portState 0x05 with ioIn := [0x9C] } : State).ioIn = 0x9C :: [] ∧ (portState 0x05).ioIn = [] := by
  decide +kernel

theorem witness_BusWriteReachesRamOrTheCollaborator :
    (portState 0x05).ram.wf = true ∧ (portState 0x05).bank 0xD000 = .io ∧ (portState 0x05).bank 0xCFFF ≠ .io := by
  decide +kernel

/-- The state after the write, and the same with the port then switched to RAM: the byte under ROM is in sight. -/
theorem witness_WriteThenReadReturnsTheByteUnlessRom :
    (portState 0x03).ram.wf = true ∧ legalPortAddr (portState 0x03).params.portAddr = true ∧
    (portState 0x03).bank 0x0001 = .ram ∧ (portState 0x03).bank 0xA000 = .basic ∧ (portState 0x03).bank 0xD000 = .chargen ∧
    (portState 0x03).bank 0xE000 = .kernal ∧ bankOf 0x00 0xA000 = .ram ∧ bankOf 0x04 0xD000 = .ram ∧
    bankOf 0x01 0xE000 = .ram ∧
    (((portState 0x03).busWrite 0xA000 0x55).busWrite 0x0001 0x00).params = (portState 0x03).params ∧
    (((portState 0x03).busWrite 0xA000 0x55).busWrite 0x0001 0x00).peek 0xA000 =
      ((portState 0x03).busWrite 0xA000 0x55).peek 0xA000 ∧
    (((portState 0x03).busWrite 0xA000 0x55).busWrite 0x0001 0x00).bank 0xA000 = .ram := by
  decide +kernel

theorem witness_PagesZeroAndOneAreAlwaysRam :
    (0x9FFF : Word).toNat < 0xA000 ∧ 0xC000 ≤ (0xC000 : Word).toNat ∧ (0xCFFF : Word).toNat < 0xD000 := by
  decide

theorem witness_ResolversGiveTheAddressOfTheirMode :
    (0x0010 : Word).toNat = ((0xF0 : Byte).toNat + ({ start with x := 0x20 } : State).x.toNat) % 256 ∧
    (0x0011 : Word).toNat = (0x0010 : Word).toNat + 1 ∧ (0x00FF : Word).toNat = (0xFF : Byte).toNat ∧
    (0x0100 : Word).toNat = (0x00FF : Word).toNat + 1 := by
  decide

theorem witness_LogicInstructionsResult :
    (Instr.oraImm 0xF0).mnemonic = .ora ∧ (Instr.oraIndy 0xFF).mnemonic = .ora ∧ (Instr.andImm 0x0F).mnemonic = .and ∧
    (Instr.andAbsx 0xFFFF).mnemonic = .and ∧ (Instr.eorImm 0xFF).mnemonic = .eor ∧ (Instr.eorZpx 0xFF).mnemonic = .eor := by
  decide

theorem witness_AdcResult : (Instr.adcImm 0xFF).mnemonic = .adc ∧ (Instr.adcAbs 0xD000).mnemonic = .adc := by
  decide

theorem witness_SbcResult : (Instr.sbcImm 0x00).mnemonic = .sbc ∧ (Instr.sbcIndx 0xFF).mnemonic = .sbc := by
  decide

theorem witness_CmpResult : (Instr.cmpImm 0x01).mnemonic = .cmp ∧ (Instr.cmpAbsy 0xFFFF).mnemonic = .cmp := by
  decide

theorem witness_CpxCpyResult :
    (Instr.cpxImm 0x05).mnemonic = .cpx ∧ (Instr.cpxAbs 0xFFFF).mnemonic = .cpx ∧ (Instr.cpyImm 0x02).mnemonic = .cpy ∧
      (Instr.cpyZp 0xFF).mnemonic = .cpy := by
  decide

theorem witness_BitResult : (Instr.bitZp 0x10).mnemonic = .bit ∧ (Instr.bitAbs 0xD012).mnemonic = .bit := by
  decide

theorem witness_ShiftsAndRotatesResult :
    start.ram.wf = true ∧ Instr.aslAcc.mnemonic = .asl ∧ Instr.aslAcc.operand = .acc ∧
    (Instr.lsrZpx 0xFF).mnemonic = .lsr ∧ (Instr.lsrZpx 0xFF).operand = .mem (.zpx 0xFF) ∧
    (Instr.rolAbs 0xD000).mnemonic = .rol ∧ (Instr.rolAbs 0xD000).operand = .mem (.abs 0xD000) ∧
    (Instr.rorAbsx 0xFFFF).mnemonic = .ror ∧ (portState 0x07).bank 0xD000 = .io ∧ start.bank 0xD000 ≠ .io := by
  decide +kernel

theorem witness_IncDecResult :
    start.ram.wf = true ∧ (Instr.incZp 0x01).mnemonic = .inc ∧ (Instr.incZp 0x01).operand = .mem (.zp 0x01) ∧
    (Instr.decAbsx 0xFFFF).mnemonic = .dec ∧ (portState 0x07).bank 0xD020 = .io := by
  decide +kernel

theorem witness_LoadsResult :
    (Instr.ldaImm 0x00).mnemonic = .lda ∧ (Instr.ldaIndy 0xFF).mnemonic = .lda ∧ (Instr.ldxZpy 0xFF).mnemonic = .ldx ∧
    (Instr.ldyAbsx 0xFFFF).mnemonic = .ldy := by
  decide

theorem witness_StoresResult :
    start.ram.wf = true ∧ (Instr.staIndy 0xFF).mnemonic = .sta ∧ (Instr.stxZpy 0xFF).mnemonic = .stx ∧
    (Instr.styAbs 0xD000).mnemonic = .sty ∧ (portState 0x07).bank 0xD000 = .io := by
  decide +kernel

theorem witness_BranchesResult :
    start.flag .zero = false ∧ start.flag .negative ≠ true ∧ ({ start with p := 0xFF } : State).flag .zero = true ∧
    ({ start with p := 0xFF } : State).flag .carry ≠ false := by
  decide

theorem witness_PushAndPullOfAByte : start.ram.wf = true ∧ ({ start with sp := 0x00 } : State).ram.wf = true := by
  decide

theorem witness_PhaPlaResult : ({ start with sp := 0x00, ram := [(0x0101, 0x80)] } : State).ram.wf = true := by
  decide

theorem witness_PhpPlpResult : ({ start with sp := 0xFF, p := 0xFF } : State).ram.wf = true := by
  decide

theorem witness_JsrResult : ({ start with sp := 0x00, pc := 0xFFFE } : State).ram.wf = true := by
  decide

theorem witness_BrkResult : ({ start with sp := 0x01, ram := [(0xFFFE, 0x34), (0xFFFF, 0x12)] } : State).ram.wf = true := by
  decide

/-- The state a JSR leaves has the SP and RAM it left. -/
theorem witness_JsrThenRtsReturns :
    start.ram.wf = true ∧ ∃ t u : State, exec (.jsr 0x2000) start = .next t ∧ u.sp = t.sp ∧ u.ram = t.ram :=
  ⟨rfl, _, _, rfl, rfl, rfl⟩

/-- The state a BRK leaves has the SP and RAM it left. -/
theorem witness_BrkThenRtiSkipsAByte :
    start.ram.wf = true ∧ ∃ t u : State, exec .brk start = .next t ∧ u.sp = t.sp ∧ u.ram = t.ram :=
  ⟨rfl, _, _, rfl, rfl, rfl⟩

theorem witness_StoreUnderRomIsHidden :
    (portState 0x07).ram.wf = true ∧ legalPortAddr (portState 0x07).params.portAddr = true ∧
    (portState 0x07).bank 0xA000 = .basic ∧ (portState 0x03).bank 0xD000 = .chargen ∧ (portState 0x07).bank 0xFFFF = .kernal ∧
    (portState 0x07).bank 0xD000 = .io := by
  decide +kernel

theorem witness_StepRunsTheDecodedInstruction :
    (placed [0xA9, 0x05] [] start).run = .running ∧
    (placed [0xA9, 0x05] [] start).fetch = .bytes [0xA9, 0x05] (placed [0xA9, 0x05] [] start) ∧
    (placed [0xA9, 0x05] [] start).bank 0x0800 ≠ .io ∧ (placed [0xA9, 0x05] [] start).bank 0x0801 ≠ .io ∧
    (placed [0xA9, 0x05] [] start).bank 0x0802 ≠ .io ∧ decodeTableWord 16 0x05A9 = some (.ldaImm 0x05) := by
  decide +kernel

theorem witness_IllegalOpcodeHaltsAndChangesNothingElse :
    (placed [0x02] [] start).run = .running ∧
      lookup (placed [0x02] [] start).params.optable ((placed [0x02] [] start).busRead 0x0800).1 = none := by
  decide +kernel

theorem witness_HaltIsStickyUntilReset :
    ({ start with run := .halted 0x0800 0x02 } : State).run = .halted 0x0800 0x02 ∧
    ({ start with run := .halted 0x0800 0x02 } : State).loadProgram [0x00, 0x10, 0x77] =
      .ok { start with run := .halted 0x0800 0x02, ram := [(0x1000, 0x77)] } :=
  ⟨rfl, rfl⟩

theorem witness_EveryInstructionCompletes : start.ram.wf = true ∧ (portState 0x07).ram.wf = true := by
  decide

theorem witness_RunningLegalMachineAlwaysSteps :
    smallStart.run = .running ∧ smallStart.params.legal = true ∧ (placed [0x02] [] smallStart).run = .running ∧
      (placed [0x02] [] smallStart).params.legal = true := by
  decide +kernel

theorem witness_StepKeepsTheInvariant :
    (placed [0x48] [] smallStart).inv = true ∧ (∃ t, step (placed [0x48] [] smallStart) = .next t ∧ (t.run == .running) = true) ∧
    (placed [0x02] [] smallStart).inv = true ∧
      ∃ t, step (placed [0x02] [] smallStart) = .next t ∧ (t.run == .halted 0x0800 0x02) = true :=
  ⟨by decide +kernel, nextWith_exists (by decide +kernel), by decide +kernel, nextWith_exists (by decide +kernel)⟩

theorem witness_FlagsAreWrittenOnlyByTheirWriters :
    (∃ t, exec .sec start = .next t ∧ (t.flag .carry != start.flag .carry) = true) ∧
    ∃ t, exec .plp start = .next t ∧ (t.flag .unused != start.flag .unused) = true :=
  ⟨nextWith_exists (by decide +kernel), nextWith_exists (by decide +kernel)⟩

theorem witness_RegistersAndRamAreWrittenOnlyByTheirWriters :
    (∃ t, exec (.ldaImm 0x05) start = .next t ∧ (t.a != start.a) = true) ∧
    (∃ t, exec .rolAcc { start with a := 0x01 } = .next t ∧ (t.a != 0x01) = true) ∧
    (∃ t, exec .inx start = .next t ∧ (t.x != start.x) = true) ∧
    (∃ t, exec .iny start = .next t ∧ (t.y != start.y) = true) ∧
    (∃ t, exec .pla start = .next t ∧ (t.sp != start.sp) = true) ∧ start.ram.wf = true ∧
    ∃ t, exec (.incZp 0x10) start = .next t ∧ (t.peek 0x0010 != start.peek 0x0010) = true :=
  ⟨nextWith_exists (by decide +kernel), nextWith_exists (by decide +kernel), nextWith_exists (by decide +kernel),
    nextWith_exists (by decide +kernel), nextWith_exists (by decide +kernel), rfl, nextWith_exists (by decide +kernel)⟩

theorem witness_PcAdvancesByLengthUnlessControlTransfer :
    (Instr.nop.mnemonic == .nop) = true ∧ Mnemonic.nop ≠ .jmp ∧ (Instr.staAbs 0xFFFF).mode = .abs := by
  decide

theorem witness_PushesStayInTheStackPage :
    ({ start with sp := 0x00 } : State).ram.wf = true ∧ (0x00FF : Word).toNat < 0x0100 ∧ 0x01FF < (0x0200 : Word).toNat := by
  decide

theorem witness_InertFlagsDecideNothing :
    Instr.adcImm 0x01 ≠ .php ∧ (Instr.adcImm 0x01).mnemonic ≠ .php ∧ (Instr.adcImm 0x01).mnemonic ≠ .brk ∧
    (∀ f ∈ [Flag.carry, .zero, .overflow, .negative], getFlag 0x1C f = start.flag f) ∧
    ∃ t, exec (.adcImm 0x01) start = .next t ∧ (t.a == 0x01) = true :=
  ⟨by decide, by decide, by decide, by decide, nextWith_exists (by decide +kernel)⟩

theorem witness_StepWithoutIoReadsIgnoresTheEnvironment :
    ∃ t, step (placed [0xA9, 0x05] [] start) = .next t ∧
      (t.ioIn == (placed [0xA9, 0x05] [] start).ioIn && t.ioDraws == (placed [0xA9, 0x05] [] start).ioDraws) = true :=
  nextWith_exists (by decide +kernel)

theorem witness_ResetLoadsPcAndRunOnly :
    (portState 0x02).port.getLsbD 1 = true ∧ (portState 0x05).port.getLsbD 1 = false := by
  decide +kernel

/-- Buffers of the right sizes, and the default parameters. -/
def goodInit : Init where
  kernal    := some (List.replicate 8192 0xEA)
  basic     := some (List.replicate 8192 0x00)
  chargen   := some (List.replicate 4096 0x00)
  portAddr  := 0x0001
  brkVector := 0xFFFE
  optable   := smallTable
  a         := 0x00
  x         := 0x00
  y         := 0x00
  sp        := 0xFF
  p         := 0x00
  ram       := [(0x0001, 0x07)]

theorem witness_ConstructionFromRomBuffers :
    ({ goodInit with kernal := none } : Init).kernal = none ∧
    ({ goodInit with basic := some [] } : Init).basic = some [] ∧ ([] : List Byte).length ≠ 8192 ∧
    goodInit.kernal = some (List.replicate 8192 0xEA) ∧ (List.replicate 8192 (0xEA : Byte)).length = 8192 ∧
    goodInit.basic = some (List.replicate 8192 0x00) ∧ (List.replicate 8192 (0x00 : Byte)).length = 8192 ∧
    goodInit.chargen = some (List.replicate 4096 0x00) ∧ (List.replicate 4096 (0x00 : Byte)).length = 4096 ∧
    legalPortAddr goodInit.portAddr = true ∧ tableWellFormed goodInit.optable = true :=
  ⟨rfl, rfl, by decide, rfl, List.length_replicate, rfl, List.length_replicate, rfl, List.length_replicate, by decide,
    by decide +kernel⟩

theorem witness_LoadProgramCopiesOrRefuses :
    start.ram.wf = true ∧ (0xFE : Byte).toNat + 256 * (0xFF : Byte).toNat + ([0x11, 0x22] : List Byte).length ≤ 65536 ∧
    65536 < (0xFE : Byte).toNat + 256 * (0xFF : Byte).toNat + ([0x11, 0x22, 0x33] : List Byte).length := by
  decide

theorem witness_PeekAndPokeAreRaw :
    (portState 0x07).ram.wf = true ∧ ([0x11, 0x22, 0x33] : List Byte).length ≤ 65536 := by
  decide

/-- The ways the clauses about a run can be met. -/
theorem witness_RunEndsByBudgetEscapeOrHalt :
    (placed [0xEA, 0x02] [] smallStart).inv = true ∧ (placed [0xEA, 0x02] [] smallStart).run = .running ∧
    ((placed [0xEA, 0x02] [] smallStart).hostRun 0x0800 1 (fun _ => false)).stop = .budget ∧
    ((placed [0xEA, 0x02] [] smallStart).hostRun 0x0800 9 (fun k => k == 1)).stop = .escape ∧
    ((placed [0xEA, 0x02] [] smallStart).hostRun 0x0800 9 (fun _ => false)).stop = .illegal 0x0801 0x02 ∧
    ((placed [0xEA, 0x02] [] smallStart).hostRun 0x0800 9 (fun _ => false)).count = 2 ∧
    ({ smallStart with run := .halted 0x0800 0x02 } : State).inv = true := by
  decide +kernel

end Sys2Proof.Tests
end

section

namespace Sys2Proof.Machine

open Sys2Proof.Claims

/-! ## Which fields of the core a mnemonic may write (10_state.md R24, R28) -/

/-- The parts of the core whose writers the spec lists (10_state.md R24, R28). -/
inductive Field where
  | a | x | y | sp | ram
  | flag (f : Flag)

/-- A read-modify-write whose location is the accumulator, not a byte of memory (42_shift_incdec.md R150). -/
def modifiesA (m : Mnemonic) (o : Operand) : Bool :=
  decide (m ∈ [Mnemonic.asl, .lsr, .rol, .ror, .inc, .dec]) && o == .acc

/-- The permissions of a mnemonic with an operand: the writers' lists read by mnemonic (10_state.md R24, R28). -/
def mayWrite (m : Mnemonic) (o : Operand) : Field → Bool
  | .a => decide (m ∈ [Mnemonic.ora, .and, .eor, .adc, .sbc, .lda, .txa, .tya, .pla]) || modifiesA m o
  | .x => decide (m ∈ [Mnemonic.ldx, .tax, .tsx, .inx, .dex])
  | .y => decide (m ∈ [Mnemonic.ldy, .tay, .iny, .dey])
  | .sp => decide (m ∈ [Mnemonic.txs, .pha, .php, .pla, .plp, .jsr, .rts, .brk, .rti])
  | .ram => decide (m ∈ ramWriters) && !modifiesA m o
  | .flag f => decide (m ∈ flagWriters f)

/-- From `s` to `t` only fields that `may` allows were written: RUN and the parameters are as before, and RAM is still in
canonical form if it was. PC and the record of the environment are free. -/
structure WritesOnly (may : Field → Bool) (s t : State) : Prop where
  a : may .a = false → t.a = s.a
  x : may .x = false → t.x = s.x
  y : may .y = false → t.y = s.y
  sp : may .sp = false → t.sp = s.sp
  ram : may .ram = false → t.ram = s.ram
  flag : ∀ f, may (.flag f) = false → t.flag f = s.flag f
  wf : s.ram.wf = true → t.ram.wf = true
  run : t.run = s.run
  params : t.params = s.params

namespace WritesOnly

/-! ## One more operation after an allowed run of operations -/

section
variable {may : Field → Bool} {s t u : State}

protected theorem refl (may : Field → Bool) (s : State) : WritesOnly may s s where
  a _ := rfl
  x _ := rfl
  y _ := rfl
  sp _ := rfl
  ram _ := rfl
  flag _ _ := rfl
  wf := id
  run := rfl
  params := rfl

theorem trans (h : WritesOnly may s t) (h' : WritesOnly may t u) : WritesOnly may s u where
  a hm := (h'.a hm).trans (h.a hm)
  x hm := (h'.x hm).trans (h.x hm)
  y hm := (h'.y hm).trans (h.y hm)
  sp hm := (h'.sp hm).trans (h.sp hm)
  ram hm := (h'.ram hm).trans (h.ram hm)
  flag f hm := (h'.flag f hm).trans (h.flag f hm)
  wf := h'.wf ∘ h.wf
  run := h'.run.trans h.run
  params := h'.params.trans h.params

/-- A change of the environment's record alone is no write. -/
theorem sameCore (h : WritesOnly may s t) (hc : SameCore t u) : WritesOnly may s u := by
  rw [hc]
  exact { h with }

theorem of_sameCore (hc : SameCore s t) : WritesOnly may s t :=
  (WritesOnly.refl may s).sameCore hc

theorem setPc (h : WritesOnly may s t) (w : Word) : WritesOnly may s (t.setPc w) :=
  { h with }

theorem setA (h : WritesOnly may s t) (hm : may .a = true) (v : Byte) : WritesOnly may s (t.setA v) :=
  { h with a := by simp [hm] }

theorem setX (h : WritesOnly may s t) (hm : may .x = true) (v : Byte) : WritesOnly may s (t.setX v) :=
  { h with x := by simp [hm] }

theorem setY (h : WritesOnly may s t) (hm : may .y = true) (v : Byte) : WritesOnly may s (t.setY v) :=
  { h with y := by simp [hm] }

theorem setSp (h : WritesOnly may s t) (hm : may .sp = true) (v : Byte) : WritesOnly may s (t.setSp v) :=
  { h with sp := by simp [hm] }

theorem setP (h : WritesOnly may s t) (hm : ∀ f, may (.flag f) = true) (q : Byte) : WritesOnly may s (t.setP q) :=
  { h with flag := by simp [hm] }

/-- A new status byte that differs from the old one in allowed flags only. -/
theorem setFlags (h : WritesOnly may s t) {written : List Flag} (hm : written.all (fun f => may (.flag f)) = true) {q : Byte}
    (hq : ∀ f ∉ written, getFlag q f = getFlag t.p f) : WritesOnly may s (t.setP q) :=
  { h with
    flag := fun f hf => by
      have hnot : f ∉ written := fun hmem => by simpa [hf] using List.all_eq_true.1 hm f hmem
      exact (hq f hnot).trans (h.flag f hf) }

theorem setFlag (h : WritesOnly may s t) {f : Flag} (hm : may (.flag f) = true) (v : Bool) :
    WritesOnly may s (t.setFlag f v) :=
  h.setFlags (written := [f]) (by simp [hm]) fun g hg => by simp [List.mem_singleton.not.1 hg]

theorem setNZ (h : WritesOnly may s t) (hn : may (.flag .negative) = true) (hz : may (.flag .zero) = true) (b : Byte) :
    WritesOnly may s (t.setNZ b) :=
  (h.setFlag hn b.msb).setFlag hz (b == 0)

theorem busWrite (h : WritesOnly may s t) (hm : may .ram = true) (addr : Word) (v : Byte) :
    WritesOnly may s (t.busWrite addr v) where
  a := by simpa using h.a
  x := by simpa using h.x
  y := by simpa using h.y
  sp := by simpa using h.sp
  ram := by simp [hm]
  flag := by simpa using h.flag
  wf hs := State.busWrite_wf (h.wf hs) addr v
  run := by simpa using h.run
  params := by simpa using h.params

theorem readWord (h : WritesOnly may s t) (addr : Word) : WritesOnly may s (t.readWord addr).2 :=
  h.sameCore (t.readWord_sameCore addr)

theorem push (h : WritesOnly may s t) (hr : may .ram = true) (hsp : may .sp = true) (v : Byte) :
    WritesOnly may s (t.push v) :=
  (h.busWrite hr (stackSlot t.sp) v).setSp hsp (t.sp - 1)

theorem pushWord (h : WritesOnly may s t) (hr : may .ram = true) (hsp : may .sp = true) (w : Word) :
    WritesOnly may s (t.pushWord w) :=
  (h.push hr hsp (highByte w)).push hr hsp (lowByte w)

theorem pull (h : WritesOnly may s t) (hsp : may .sp = true) : WritesOnly may s t.pull.2 :=
  (h.setSp hsp (t.sp + 1)).sameCore (State.busRead_sameCore _ _)

theorem pullWord (h : WritesOnly may s t) (hsp : may .sp = true) : WritesOnly may s t.pullWord.2 :=
  (h.pull hsp).pull hsp

/-! ## The shapes of the instruction rules -/

theorem reads {body : Byte → State → State} (hbody : ∀ b t, WritesOnly may t (body b t)) (o : Operand) (s : State) :
    WritesOnly may s ((Shape.reads body).effect o s) := by
  have hbyte (b t n) : WritesOnly may t ((body b t).advance n) := (hbody b t).setPc _
  cases o with
  | imm b => exact hbyte b s _
  | mem form =>
    have hload : WritesOnly may s (s.loadForm form).2 := by
      rw [State.loadForm_eq]
      exact .of_sameCore (s.busRead_sameCore _)
    exact hload.trans (hbyte _ _ _)
  | imp | acc | rel _ | ind _ => exact .refl may s

theorem modifies {op : Byte → Byte → Byte × Byte} {o : Operand} {written : List Flag}
    (hloc : may (if o = .acc then .a else .ram) = true) (hm : written.all (fun f => may (.flag f)) = true)
    (hop : ∀ v p, ∀ f ∉ written, getFlag (op v p).2 f = getFlag p f) (s : State) :
    WritesOnly may s ((Shape.modifies op).effect o s) := by
  cases o with
  | acc => exact (((WritesOnly.refl may s).setA hloc _).setFlags hm (hop _ _)).setPc _
  | mem form =>
    have hread (addr) : WritesOnly may s (s.busRead addr).2 := .of_sameCore (s.busRead_sameCore addr)
    change WritesOnly may s (modifyMemory op form s)
    rw [modifyMemory_eq]
    exact (((hread _).busWrite hloc _ _).setFlags hm (by simpa using hop _ _)).setPc _
  | imp | imm _ | rel _ | ind _ => exact .refl may s

theorem stores {value : State → Byte} (hm : may .ram = true) (o : Operand) (s : State) :
    WritesOnly may s ((Shape.stores value).effect o s) := by
  cases o with
  | mem form =>
    change WritesOnly may s (storeTo (value s) form s)
    rw [storeTo_eq]
    exact ((WritesOnly.refl may s).busWrite hm _ _).setPc _
  | imp | acc | imm _ | rel _ | ind _ => exact .refl may s

theorem implied {body : State → State} (hbody : ∀ t, WritesOnly may t (body t)) (o : Operand) (s : State) :
    WritesOnly may s ((Shape.implied body).effect o s) :=
  (hbody s).setPc _

theorem branch {f : Flag} {v : Bool} (o : Operand) (s : State) :
    WritesOnly may s ((Shape.branch f v).effect o s) := by
  cases o with
  | rel off => exact (WritesOnly.refl may s).setPc _
  | imp | acc | imm _ | mem _ | ind _ => exact .refl may s

theorem jump (o : Operand) (s : State) : WritesOnly may s (jumpEffect o s) := by
  cases o with
  | mem form =>
    cases form with
    | abs w => exact (WritesOnly.refl may s).setPc w
    | _ => exact .refl may s
  | ind w => exact ((WritesOnly.refl may s).readWord w).setPc _
  | imp | acc | imm _ | rel _ => exact .refl may s

theorem call (hr : may .ram = true) (hsp : may .sp = true) (o : Operand) (s : State) :
    WritesOnly may s (callEffect o s) := by
  cases o with
  | mem form =>
    cases form with
    | abs w => exact ((WritesOnly.refl may s).pushWord hr hsp _).setPc w
    | _ => exact .refl may s
  | imp | acc | imm _ | rel _ | ind _ => exact .refl may s

end

end WritesOnly

/-! ## The flags a computation writes -/

theorem deriveNZ_flag_kept (b p : Byte) : ∀ f ∉ [Flag.negative, .zero], getFlag (deriveNZ b p) f = getFlag p f := by
  intro f hf
  simp only [List.mem_cons, List.not_mem_nil, or_false, not_or] at hf
  simp [hf]

theorem addWithCarry_flag_kept (a m p : Byte) :
    ∀ f ∉ [Flag.carry, .zero, .overflow, .negative], getFlag (addWithCarry a m p).2 f = getFlag p f := by
  intro f hf
  simp only [List.mem_cons, List.not_mem_nil, or_false, not_or] at hf
  simp [addWithCarry_flag, hf]

theorem compareFlags_flag_kept (reg m p : Byte) :
    ∀ f ∉ [Flag.carry, .zero, .negative], getFlag (compareFlags reg m p) f = getFlag p f := by
  intro f hf
  simp only [List.mem_cons, List.not_mem_nil, or_false, not_or] at hf
  simp [compareFlags_flag, hf]

theorem bitTestFlags_flag_kept (a m p : Byte) :
    ∀ f ∉ [Flag.zero, .overflow, .negative], getFlag (bitTestFlags a m p) f = getFlag p f := by
  intro f hf
  simp only [List.mem_cons, List.not_mem_nil, or_false, not_or] at hf
  simp [bitTestFlags_flag, hf]

theorem shifted_flag_kept (r : Byte) (out : Bool) (p : Byte) :
    ∀ f ∉ [Flag.carry, .zero, .negative], getFlag (shifted r out p).2 f = getFlag p f := by
  intro f hf
  simp only [List.mem_cons, List.not_mem_nil, or_false, not_or] at hf
  simp [hf]

/-! ## Every instruction writes its own fields only -/

/-- The effect of each mnemonic is a chain of operations, each of which the mnemonic may do. -/
theorem effect_writesOnly (m : Mnemonic) (o : Operand) (s : State) :
    WritesOnly (mayWrite m o) s ((shapeOf m).effect o s) := by
  have start (t) := WritesOnly.refl (mayWrite m o) t
  cases m
  case ora | and | eor | lda => exact .reads (fun _ t => ((start t).setA rfl _).setNZ rfl rfl _) o s
  case ldx => exact .reads (fun _ t => ((start t).setX rfl _).setNZ rfl rfl _) o s
  case ldy => exact .reads (fun _ t => ((start t).setY rfl _).setNZ rfl rfl _) o s
  case adc | sbc => exact .reads (fun _ t => ((start t).setA rfl _).setFlags rfl (addWithCarry_flag_kept _ _ _)) o s
  case cmp | cpx | cpy => exact .reads (fun _ t => (start t).setFlags rfl (compareFlags_flag_kept _ _ _)) o s
  case bit => exact .reads (fun _ t => (start t).setFlags rfl (bitTestFlags_flag_kept _ _ _)) o s
  case asl | lsr | rol | ror =>
    exact .modifies (by cases o <;> rfl) rfl (fun _ _ => shifted_flag_kept _ _ _) s
  case inc | dec => exact .modifies (by cases o <;> rfl) rfl (fun _ _ => deriveNZ_flag_kept _ _) s
  case sta | stx | sty => exact .stores rfl o s
  case inx | dex | tax => exact .implied (fun t => ((start t).setX rfl _).setNZ rfl rfl _) o s
  case iny | dey | tay => exact .implied (fun t => ((start t).setY rfl _).setNZ rfl rfl _) o s
  case txa | tya => exact .implied (fun t => ((start t).setA rfl _).setNZ rfl rfl _) o s
  case tsx => exact .implied (fun t => (start t).setX rfl _) o s
  case txs => exact .implied (fun t => (start t).setSp rfl _) o s
  case clc | sec | cli | sei | cld | sed | clv => exact .implied (fun t => (start t).setFlag rfl _) o s
  case nop => exact .implied start o s
  case pha | php => exact .implied (fun t => (start t).push rfl rfl _) o s
  case pla => exact .implied (fun t => (((start t).pull rfl).setA rfl _).setNZ rfl rfl _) o s
  case plp => exact .implied (fun t => ((start t).pull rfl).setP (by rintro ⟨⟩ <;> rfl) _) o s
  case bpl | bmi | bvc | bvs | bcc | bcs | bne | beq => exact .branch o s
  case jsr => exact .call rfl rfl o s
  case rts => exact ((start s).pullWord rfl).setPc _
  case jmp => exact .jump o s
  case brk =>
    exact ((((((start s).setFlag rfl _).setFlag rfl _).pushWord rfl rfl _).push rfl rfl _).readWord _).setPc _
  case rti => exact ((((start s).pull rfl).setP (by rintro ⟨⟩ <;> rfl) _).pullWord rfl).setPc _

/-- What an instruction leaves as it was, for every instruction and state. -/
theorem exec_writesOnly {i : Instr} {s t : State} (h : exec i s = .next t) :
    WritesOnly (mayWrite i.mnemonic i.operand) s t := by
  rw [exec_eq, Host.Outcome.next.injEq] at h
  exact h ▸ effect_writesOnly i.mnemonic i.operand s

/-! ## The obligations on what an instruction writes -/

/-- Settles O50: a flag that the mnemonic may not write is kept. -/
theorem flagsAreWrittenOnlyByTheirWriters : Obligations.FlagsAreWrittenOnlyByTheirWriters := by
  intro i s t f h hne
  simpa only [mayWrite, decide_eq_false_iff_not, not_not] using mt ((exec_writesOnly h).flag f) hne

/-- Only the four shifts and rotates have an Accumulator form (30_encoding.md R96). -/
theorem mnemonic_of_ofParts_acc : ∀ m, (Instr.ofParts m .acc).isSome = true → m ∈ [Mnemonic.asl, .lsr, .rol, .ror] := by
  rintro ⟨⟩ <;> decide

theorem operand_eq_acc_iff (o : Operand) : o = .acc ↔ o.mode = .acc := by
  rcases o with _ | _ | _ | (_ | _ | _ | _ | _ | _ | _ | _) | _ | _ <;> simp [Operand.mode, MemForm.mode]

theorem mnemonic_of_mode_acc {i : Instr} (h : i.mode = .acc) : i.mnemonic ∈ [Mnemonic.asl, .lsr, .rol, .ror] := by
  have hparts := ofParts_parts i
  rw [(operand_eq_acc_iff i.operand).2 h] at hparts
  exact mnemonic_of_ofParts_acc _ (Option.isSome_of_eq_some hparts)

/-- An instruction modifies A in place exactly when it is in Accumulator mode. -/
theorem modifiesA_iff (i : Instr) : modifiesA i.mnemonic i.operand = true ↔ i.mode = .acc := by
  have hacc : i.operand = .acc ↔ i.mode = .acc := operand_eq_acc_iff i.operand
  simp only [modifiesA, Bool.and_eq_true, decide_eq_true_eq, beq_iff_eq, hacc]
  exact ⟨And.right, fun h => ⟨List.mem_append_left [Mnemonic.inc, .dec] (mnemonic_of_mode_acc h), h⟩⟩

/-- Settles O51: a register, or RAM as a whole, that the mnemonic may not write is kept. -/
theorem registersAndRamAreWrittenOnlyByTheirWriters : Obligations.RegistersAndRamAreWrittenOnlyByTheirWriters := by
  intro i s t h
  have hw := exec_writesOnly h
  refine ⟨fun hne => ?_, fun hne => ?_, fun hne => ?_, fun hne => ?_, fun _ b hne => ?_⟩
  · have hm := Bool.of_not_eq_false (mt hw.a hne)
    simp only [mayWrite, Bool.or_eq_true, decide_eq_true_eq, modifiesA_iff] at hm
    exact hm.imp_right fun hacc => ⟨mnemonic_of_mode_acc hacc, hacc⟩
  · exact of_decide_eq_true (Bool.of_not_eq_false (mt hw.x hne))
  · exact of_decide_eq_true (Bool.of_not_eq_false (mt hw.y hne))
  · exact of_decide_eq_true (Bool.of_not_eq_false (mt hw.sp hne))
  · have hram : t.ram ≠ s.ram := fun e => hne (congrArg (Memory.read · b.toNat) e)
    have hm := Bool.of_not_eq_false (mt hw.ram hram)
    simpa only [mayWrite, Bool.and_eq_true, decide_eq_true_eq, Bool.not_eq_true', Bool.eq_false_iff, ne_eq,
      modifiesA_iff] using hm

/-! ## The invariant -/

theorem State.inv_iff (s : State) : s.inv = true ↔ s.ram.wf = true ∧ s.params.legal = true ∧ s.haltSound = true := by
  simp only [State.inv, Bool.and_eq_true, and_assoc]

/-- Where a running machine ends without a write of RUN, the invariant holds if it held before. -/
theorem WritesOnly.inv_of_running {may : Field → Bool} {s t : State} (h : WritesOnly may s t) (hs : s.inv = true)
    (hrun : s.run = .running) : t.inv = true := by
  obtain ⟨hwf, hlegal, -⟩ := s.inv_iff.1 hs
  refine t.inv_iff.2 ⟨h.wf hwf, h.params ▸ hlegal, ?_⟩
  rw [State.haltSound, h.run, hrun]

/-- A machine that halts where it stands, on an unpopulated opcode, meets the invariant. -/
theorem State.raiseIllegal_inv {s : State} (hs : s.inv = true) {opcode : Byte}
    (hlookup : lookup s.params.optable opcode = none) : (s.raiseIllegal opcode).inv = true := by
  obtain ⟨hwf, hlegal, -⟩ := s.inv_iff.1 hs
  refine (State.inv_iff _).2 ⟨hwf, hlegal, ?_⟩
  simp [State.haltSound, State.raiseIllegal, hlookup]

/-- Settles O48: a step fetches, then halts on an unpopulated opcode or executes one instruction, and neither the fetch nor the
instruction writes RUN or a parameter. -/
theorem stepKeepsTheInvariant : Obligations.StepKeepsTheInvariant := by
  intro s t hinv hstep
  obtain ⟨hrun, ⟨opcode, u, hfetch, rfl⟩ | ⟨code, u, i, rest, hfetch, -, hexec⟩⟩ := step_next hstep
  · obtain ⟨hread, hlookup⟩ := State.fetch_illegal hfetch
    have hcore : SameCore s u := by simpa only [hread] using s.busRead_sameCore s.pc
    have hu : WritesOnly (fun _ => false) s u := .of_sameCore hcore
    exact ⟨State.raiseIllegal_inv (hu.inv_of_running hinv hrun) (hu.params ▸ hlookup), hu.params⟩
  · obtain ⟨opcode, operand, row, -, -, -, -, hcore⟩ := State.fetch_bytes hfetch
    have ht := (WritesOnly.of_sameCore hcore).trans (exec_writesOnly hexec)
    exact ⟨ht.inv_of_running hinv hrun, ht.params⟩

/-- Settles O49: the reset state is closed, so each clause is evaluated. -/
theorem resetMeetsTheInvariant : Obligations.ResetMeetsTheInvariant := by
  refine ⟨?_, rfl, rfl, rfl, rfl⟩
  decide +kernel

/-! ## The status byte bit by bit (10_state.md R23) -/

theorem Flag.bit_inj {f g : Flag} : f.bit = g.bit ↔ f = g := by
  cases f <;> cases g <;> decide

/-- Each of the eight bit numbers is a flag's. -/
theorem Flag.exists_bit_eq : ∀ k < 8, ∃ f : Flag, f.bit = k
  | 0, _ => ⟨.carry, rfl⟩
  | 1, _ => ⟨.zero, rfl⟩
  | 2, _ => ⟨.interrupt, rfl⟩
  | 3, _ => ⟨.decimal, rfl⟩
  | 4, _ => ⟨.brk, rfl⟩
  | 5, _ => ⟨.unused, rfl⟩
  | 6, _ => ⟨.overflow, rfl⟩
  | 7, _ => ⟨.negative, rfl⟩

theorem testBit_bit (p : Byte) (f : Flag) : p.toNat.testBit f.bit = getFlag p f :=
  BitVec.testBit_toNat p

/-- Settles O6: each bit below 8 is a flag's, and the laws of the flags give its value. -/
theorem flagWritesAreMasked : Obligations.FlagWritesAreMasked := by
  refine ⟨fun f v p k hk => ?_, fun b p k hk => ?_⟩ <;> obtain ⟨g, rfl⟩ := Flag.exists_bit_eq k hk
  · simp only [testBit_bit, getFlag_setFlag, Flag.bit_inj]
  · have hneg : g.bit = 7 ↔ g = .negative := Flag.bit_inj (g := .negative)
    have hzero : g.bit = 1 ↔ g = .zero := Flag.bit_inj (g := .zero)
    have hb : (b == 0) = decide (b.toNat = 0) := decide_eq_decide.2 (BitVec.toNat_inj (y := 0)).symm
    simp only [testBit_bit, getFlag_deriveNZ, hneg, hzero, hb]
    cases g <;> simp [BitVec.msb_eq_decide]

end Sys2Proof.Machine
end

section

namespace Sys2Proof.Machine

open Sys2Proof.Claims

/-! ## The bank decode in numbers (20_memory.md R51, R57) -/

/-- Port bits 1:0 are both clear. -/
theorem extractLsb'_two_eq_zero_iff (port : Byte) : port.extractLsb' 0 2 = 0 ↔ port.toNat % 4 = 0 := by
  rw [← BitVec.toNat_inj]
  simp

/-- The bank decode with addresses and port bits as numbers. -/
theorem bankOf_eq (port : Byte) (addr : Word) : bankOf port addr =
    if 0xA000 ≤ addr.toNat ∧ addr.toNat ≤ 0xBFFF then
      if port.toNat % 4 = 0 then .ram else .basic
    else if 0xD000 ≤ addr.toNat ∧ addr.toNat ≤ 0xDFFF then
      if port.toNat % 4 = 0 then .ram else if port.toNat / 4 % 2 = 1 then .io else .chargen
    else if 0xE000 ≤ addr.toNat then
      if port.toNat / 2 % 2 = 1 then .kernal else .ram
    else .ram := by
  simp only [bankOf, BitVec.le_def, ne_eq, ite_not, extractLsb'_two_eq_zero_iff, BitVec.getLsbD,
    Nat.testBit_eq_decide_div_mod_eq, decide_eq_true_eq, Nat.reducePow, BitVec.reduceToNat]

/-- Only the low three bits of the port byte select storage (20_memory.md R57). -/
theorem bankOf_congr_mod_eight {p q : Byte} (h : p.toNat % 8 = q.toNat % 8) (addr : Word) :
    bankOf p addr = bankOf q addr := by
  have hlow : p.toNat % 4 = q.toNat % 4 := by omega
  have hbit1 : p.toNat / 2 % 2 = q.toNat / 2 % 2 := by omega
  have hbit2 : p.toNat / 4 % 2 = q.toNat / 4 % 2 := by omega
  simp only [bankOf_eq, hlow, hbit1, hbit2]

/-- Outside the three windows every address is RAM, whatever the port byte (20_memory.md R64). -/
theorem bankOf_outside_windows (port : Byte) {addr : Word}
    (h : addr.toNat < 0xA000 ∨ (0xC000 ≤ addr.toNat ∧ addr.toNat < 0xD000)) : bankOf port addr = .ram := by
  rw [bankOf_eq, if_neg (by omega), if_neg (by omega), if_neg (by omega)]

theorem legalPortAddr_iff (addr : Word) :
    legalPortAddr addr = true ↔ addr.toNat < 0xA000 ∨ (0xC000 ≤ addr.toNat ∧ addr.toNat < 0xD000) := by
  simp only [legalPortAddr, BitVec.le_def, BitVec.reduceToNat, Bool.not_eq_true', Bool.or_eq_false_iff,
    decide_eq_false_iff_not]
  omega

/-- A legal PORT_ADDR is RAM whatever byte it holds (10_state.md R33). -/
theorem State.bank_of_legalPortAddr (s : State) {addr : Word} (h : legalPortAddr addr = true) : s.bank addr = .ram :=
  bankOf_outside_windows s.port ((legalPortAddr_iff addr).1 h)

/-! ## What each bank reads (20_memory.md R51, R52) -/

theorem State.busRead_of_basic {s : State} {addr : Word} (h : s.bank addr = .basic) :
    s.busRead addr = (s.params.basic.read (addr.toNat - 0xA000), s) := by
  rw [State.busRead, h]

theorem State.busRead_of_chargen {s : State} {addr : Word} (h : s.bank addr = .chargen) :
    s.busRead addr = (s.params.chargen.read (addr.toNat - 0xD000), s) := by
  rw [State.busRead, h]

theorem State.busRead_of_kernal {s : State} {addr : Word} (h : s.bank addr = .kernal) :
    s.busRead addr = (s.params.kernal.read (addr.toNat - 0xE000), s) := by
  rw [State.busRead, h]

theorem State.busRead_of_io {s : State} {addr : Word} (h : s.bank addr = .io) : s.busRead addr = s.ioRead addr := by
  rw [State.busRead, h]

theorem State.ioAnswer_of_cons {s : State} {c : Byte} {rest : List Byte} (h : s.ioIn = c :: rest) :
    s.ioAnswer = (c, s.setIoIn rest) := by
  rw [State.ioAnswer, h]

theorem State.ioAnswer_of_nil {s : State} (h : s.ioIn = []) :
    s.ioAnswer = (Config.ioDraw s.ioDraws, s.setIoDraws (s.ioDraws + 1)) := by
  rw [State.ioAnswer, h]

/-- What a ROM window reads depends on the selection and the ROM images alone, not on RAM. -/
theorem State.busRead_fst_congr_of_rom {s t : State} {addr : Word} (hparams : t.params = s.params)
    (hbank : t.bank addr = s.bank addr)
    (hrom : s.bank addr = .basic ∨ s.bank addr = .chargen ∨ s.bank addr = .kernal) :
    (t.busRead addr).1 = (s.busRead addr).1 := by
  obtain h | h | h := hrom
  · rw [State.busRead_of_basic (hbank.trans h), State.busRead_of_basic h, hparams]
  · rw [State.busRead_of_chargen (hbank.trans h), State.busRead_of_chargen h, hparams]
  · rw [State.busRead_of_kernal (hbank.trans h), State.busRead_of_kernal h, hparams]

/-! ## What a bus write changes (20_memory.md R53, R56) -/

/-- A bus write changes RAM and the record of collaborator accesses, and nothing else. -/
theorem State.busWrite_frame (addr : Word) (v : Byte) (s : State) :
    s.busWrite addr v = { s with ram := (s.busWrite addr v).ram, ioLog := (s.busWrite addr v).ioLog } := by
  by_cases hio : s.bank addr = .io
  · rw [State.busWrite_eq_ioWrite hio]; rfl
  · rw [State.busWrite_eq_poke hio]; rfl

/-- The port byte after a bus write: the byte written, if that lands in RAM at PORT_ADDR. -/
theorem State.port_busWrite {s : State} (h : s.ram.wf = true) (addr : Word) (v : Byte) :
    (s.busWrite addr v).port = if s.params.portAddr = addr ∧ s.bank addr ≠ .io then v else s.port := by
  rw [State.port, State.busWrite_params, State.peek_busWrite h, State.port]

/-- With a legal PORT_ADDR a write does not change the selection of its own address: at PORT_ADDR it is RAM before and
after, and anywhere else the write leaves the port byte. -/
theorem State.bank_busWrite_self {s : State} (h : s.ram.wf = true) (hport : legalPortAddr s.params.portAddr = true)
    (addr : Word) (v : Byte) : (s.busWrite addr v).bank addr = s.bank addr := by
  by_cases heq : s.params.portAddr = addr
  · have hlegal : legalPortAddr addr = true := heq ▸ hport
    rw [State.bank_of_legalPortAddr _ hlegal, State.bank_of_legalPortAddr _ hlegal]
  · rw [State.bank, State.port_busWrite h, if_neg fun hw => heq hw.1, State.bank]

/-! ## The byte registers through the host (10_state.md R29) -/

/-- Reading a byte register after a write of one. -/
theorem State.getReg_setReg (s : State) (r q : ByteReg) (v : Byte) :
    (s.setReg r v).getReg q = if q = r then v else s.getReg q := by
  cases r <;> cases q <;> rfl

/-- Setting a byte register writes no field but the byte registers. -/
theorem State.setReg_frame (s : State) (r : ByteReg) (v : Byte) :
    s.setReg r v = { s with a := (s.setReg r v).a, x := (s.setReg r v).x, y := (s.setReg r v).y,
                            sp := (s.setReg r v).sp, p := (s.setReg r v).p } := by
  cases r <;> rfl

/-! ## The obligations of 20_memory.md -/

/-- Settles O7: the decode in numbers, which names no port bit above the low three. -/
theorem bankDecodeByPortBits : Obligations.BankDecodeByPortBits :=
  ⟨bankOf_eq, fun _ _ addr h => bankOf_congr_mod_eight h addr⟩

/-- Settles O8: the selection reads the port byte and no other part of the state. -/
theorem bankIsDerivedFromThePortByteAlone : Obligations.BankIsDerivedFromThePortByteAlone := by
  refine ⟨fun s t addr hpeek => congrArg (bankOf · addr) hpeek, fun s v addr h hio => ?_⟩
  rw [State.bank, State.port_busWrite h, if_pos ⟨rfl, hio⟩]

/-- Settles O9: one clause for each bank; in the I/O window the answer is the queue's oldest byte or a draw, so a queue of one
byte makes the read return that byte. -/
theorem busReadReturnsTheSelectedByte : Obligations.BusReadReturnsTheSelectedByte := by
  intro s addr
  refine ⟨State.busRead_of_ram, State.busRead_of_basic, State.busRead_of_chargen, State.busRead_of_kernal,
    fun hio => ?_, fun hio b => ⟨[b], ?_⟩⟩
  · refine ⟨(s.busRead addr).1, (s.busRead addr).2, rfl, s.busRead_sameCore addr, ?_, fun c rest hq => ?_, fun hq => ?_⟩
    · rw [State.busRead_of_io hio]; rfl
    · rw [State.busRead_of_io hio, State.ioRead, State.ioAnswer_of_cons hq]
      exact ⟨rfl, rfl, rfl⟩
    · rw [State.busRead_of_io hio, State.ioRead, State.ioAnswer_of_nil hq]
      exact ⟨hq, rfl⟩
  · exact congrArg Prod.fst (State.busRead_of_io (s := s.setIoIn [b]) hio)

/-- Settles O10: a write is a poke, or in the selected I/O window an event. -/
theorem busWriteReachesRamOrTheCollaborator : Obligations.BusWriteReachesRamOrTheCollaborator := by
  intro s addr v h
  refine ⟨⟨fun b hb => ?_, ?_, ?_, ?_, ?_, fun hio => ⟨?_, ?_⟩, fun hio => ⟨?_, ?_⟩⟩, State.busWrite_wf h addr v,
    State.busWrite_frame addr v s⟩
  · rw [State.peek_busWrite h, if_neg fun hw => hb hw.1]
  · exact State.busWrite_params addr v s
  · exact State.busWrite_run addr v s
  · exact State.busWrite_ioIn addr v s
  · exact State.busWrite_ioDraws addr v s
  · rw [State.peek_busWrite h, if_pos ⟨rfl, hio⟩]
  · rw [State.busWrite_eq_poke hio, State.poke_ioLog]
  · rw [State.peek_busWrite h, if_neg fun hw => hw.2 hio]
  · rw [State.busWrite_eq_ioWrite hio]; rfl

/-- Settles O11: a write keeps the selection of its own address, so RAM gives the byte back and a ROM window its old byte; the
byte below the ROM is in RAM, and comes in sight in every state that selects RAM there. -/
theorem writeThenReadReturnsTheByteUnlessRom : Obligations.WriteThenReadReturnsTheByteUnlessRom := by
  intro s addr v h hport
  have hbank := State.bank_busWrite_self h hport addr v
  have hpeek (hio : s.bank addr ≠ .io) : (s.busWrite addr v).peek addr = v := by
    rw [State.peek_busWrite h, if_pos ⟨rfl, hio⟩]
  refine ⟨State.busRead_state, fun hram => ?_, fun hrom => ?_⟩
  · rw [State.busRead_of_ram (hbank.trans hram)]
    exact hpeek (by simp [hram])
  have hio : s.bank addr ≠ .io := fun e => by simp [e] at hrom
  have hne : addr ≠ s.params.portAddr := by
    rintro rfl
    simp [s.bank_of_legalPortAddr hport] at hrom
  have in_sight {t : State} (ht : t.peek addr = (s.busWrite addr v).peek addr) (hram : t.bank addr = .ram) :
      (t.busRead addr).1 = v := by
    rw [State.busRead_of_ram hram]
    exact ht.trans (hpeek hio)
  refine ⟨State.busRead_fst_congr_of_rom (State.busWrite_params addr v s) hbank hrom, fun w hw => in_sight ?_ ?_,
    fun t _ => in_sight⟩
  · rw [State.peek_busWrite (State.busWrite_wf h addr v), if_neg fun hb => hne hb.1]
  · rw [State.bank, State.port_busWrite (State.busWrite_wf h addr v), State.busWrite_params,
      State.bank_of_legalPortAddr _ hport, if_pos ⟨rfl, by decide⟩, hw]

/-- Settles O12: the two accesses of a word are at the address and the next, by definition; the bytes follow from the laws of
the bytes of a word. -/
theorem wordsAreLittleEndian : Obligations.WordsAreLittleEndian := by
  intro s addr
  refine ⟨(s.busRead addr).1, (s.busRead addr).2, ((s.busRead addr).2.busRead (addr + 1)).1, (s.readWord addr).2, addr + 1,
    BitVec.toNat_add addr 1, rfl, rfl, rfl, operandWord_toNat _ _, fun w => ?_⟩
  exact ⟨lowByte w, highByte w, lowByte_toNat w, highByte_toNat w, rfl⟩

/-- Settles O13: no window holds page zero, the stack page or another of these addresses. -/
theorem pagesZeroAndOneAreAlwaysRam : Obligations.PagesZeroAndOneAreAlwaysRam :=
  ⟨fun s _ => bankOf_outside_windows s.port, fun s sp => ⟨stackSlot_toNat sp, s.bank_stackSlot sp⟩⟩

/-- Settles O59: the laws of `poke`, `pokeBytes` and the setters, clause by clause. -/
theorem peekAndPokeAreRaw : Obligations.PeekAndPokeAreRaw :=
  ⟨fun _ addr b v h => ⟨State.peek_poke h addr b v, State.poke_wf h addr v, rfl⟩,
    fun s addr bytes h => ⟨rfl, fun v => State.pokeBytes_append addr bytes v s, State.pokeBytes_wf h addr bytes,
      State.pokeBytes_frame addr bytes s, State.peek_pokeBytes h addr bytes⟩,
    fun s r v => ⟨fun q => s.getReg_setReg r q v, s.setReg_frame r v⟩,
    fun _ _ => rfl,
    fun s f v => ⟨fun g => getFlag_setFlag f g v s.p, rfl⟩⟩

end Sys2Proof.Machine
end

section

namespace Sys2Proof

/-! ## What the decoder read (30_encoding.md R90, R93, R103) -/

/-- No instruction is empty or longer than three bytes (30_encoding.md R91, R93). -/
theorem Mode.length_bounds (mode : Mode) : 1 ≤ mode.length ∧ mode.length ≤ 3 := by
  cases mode <;> decide

/-- The table's row for the opcode binds the instruction's mnemonic in its mode, and the instruction's operand bytes come
next. -/
theorem decodeWith_cons_eq_ok_iff {table : List Row} {opcode : Byte} {bytes rest : List Byte} {i : Instr} :
    decodeWith table (opcode :: bytes) = .ok (i, rest) ↔
      ∃ row, lookup table opcode = some row ∧ row.mnemonic = i.mnemonic ∧ row.mode = i.mode ∧
        bytes = i.operand.bytes ++ rest := by
  constructor
  · intro h
    simp only [decodeWith] at h
    split at h
    · cases h
    · next row hrow =>
      split at h
      · cases h
      · next operand more htake =>
        split at h
        · cases h
        · next hparts =>
          cases h
          obtain ⟨hmode, hbytes⟩ := takeOperand_some htake
          obtain ⟨hmnemonic, rfl⟩ := ofParts_some hparts
          exact ⟨row, hrow, hmnemonic.symm, hmode.symm, hbytes⟩
  · rintro ⟨row, hrow, hmnemonic, hmode, rfl⟩
    have htake : row.mode.takeOperand (i.operand.bytes ++ rest) = some (i.operand, rest) :=
      hmode ▸ takeOperand_bytes i.operand rest
    have hparts : Instr.ofParts row.mnemonic i.operand = some i := hmnemonic ▸ ofParts_parts i
    simp only [decodeWith, hrow, htake, hparts]

/-- The length told by the opcode is that of the mode in the table's row (30_encoding.md R93). -/
theorem instrLength_eq_some_iff {table : List Row} {opcode : Byte} {n : Nat} :
    instrLength table opcode = some n ↔ ∃ row, lookup table opcode = some row ∧ row.mode.length = n :=
  Option.map_eq_some_iff

/-! ## The obligations on lengths and on the example bytes -/

/-- Settles O4: the decoded instruction has the mode of the opcode's row, and its operand bytes are what was consumed after
the opcode. -/
theorem lengthIsToldByTheOpcodeByte : Obligations.LengthIsToldByTheOpcodeByte := by
  intro table opcode
  refine ⟨Option.map_eq_none_iff.2, fun row hrow => instrLength_eq_some_iff.2 ⟨row, hrow, rfl⟩,
    fun n hn => ?_, fun bytes rest i h => ?_⟩
  · obtain ⟨row, -, rfl⟩ := instrLength_eq_some_iff.1 hn
    exact row.mode.length_bounds
  · obtain ⟨row, hrow, -, hmode, rfl⟩ := decodeWith_cons_eq_ok_iff.1 h
    have hlen : i.operand.bytes.length + 1 = i.mode.length := bytes_length i.operand
    refine ⟨instrLength_eq_some_iff.2 ⟨row, hrow, congrArg Mode.length hmode⟩, ?_⟩
    rw [List.length_append, ← hlen]
    omega

/-- Settles O5: the bytes are closed, so each clause is evaluated. -/
theorem sampleWordsDecode : Obligations.SampleWordsDecode :=
  ⟨rfl, rfl, rfl, rfl, rfl, rfl, rfl, rfl, rfl, rfl, rfl, rfl, rfl⟩

end Sys2Proof
end

section

namespace Sys2Proof.Machine

open Sys2Proof.Claims

/-! ## The resolved addresses in numbers (40_addressing.md R112 to R120) -/

/-- A zero-page index sum stays in page zero (40_addressing.md R113, R114). -/
theorem zeroPage_add_toNat (base index : Byte) :
    (zeroPage (base + index)).toNat = (base.toNat + index.toNat) % 256 :=
  (zeroPage_toNat _).trans (BitVec.toNat_add base index)

/-- Any other index sum is mod 65536 (40_addressing.md R116, R117). -/
theorem add_zeroPage_toNat (base : Word) (index : Byte) :
    (base + zeroPage index).toNat = (base.toNat + index.toNat) % 65536 := by
  rw [BitVec.toNat_add, zeroPage_toNat]

/-- A pointer word at `p` in page zero has its high byte at the next address `q`, which for `p = 0x00FF` is 0x0100
(40_addressing.md R119, R120). -/
theorem State.readWord_zeroPage_toNat (s : State) {b : Byte} {p q : Word} (hp : p.toNat = (zeroPage b).toNat)
    (hq : q.toNat = p.toNat + 1) :
    (s.readWord (zeroPage b)).1.toNat = (s.peek q).toNat * 256 + (s.peek p).toNat := by
  obtain rfl : p = zeroPage b := BitVec.eq_of_toNat_eq hp
  obtain rfl : q = zeroPage b + 1 := BitVec.eq_of_toNat_eq (by
    rw [hq, BitVec.toNat_add]
    exact (Nat.mod_eq_of_lt (hq ▸ q.isLt)).symm)
  rw [State.readWord_zeroPage, operandWord_toNat]

/-- Settles O14: each mode's address is a byte or a word, an index sum, or a pointer word with its sum. -/
theorem resolversGiveTheAddressOfTheirMode : Obligations.ResolversGiveTheAddressOfTheirMode := by
  intro s b w
  refine ⟨s.resolve_state, zeroPage_toNat b, zeroPage_add_toNat b s.x, zeroPage_add_toNat b s.y, rfl,
    add_zeroPage_toNat w s.x, add_zeroPage_toNat w s.y, fun p q hp hq => ?indx, fun p q hp hq => ?indy⟩
  case indx => exact s.readWord_zeroPage_toNat (hp.trans (zeroPage_add_toNat b s.x).symm) hq
  case indy =>
    rw [← s.readWord_zeroPage_toNat (hp.trans (zeroPage_toNat b).symm) hq]
    exact add_zeroPage_toNat (s.readWord (zeroPage b)).1 s.y

/-! ## PC after an instruction that is not a control transfer (40_addressing.md R124) -/

theorem State.pull_pc (s : State) : s.pull.2.pc = s.pc := by
  rw [State.pull_eq, State.setSp_pc]

/-- PC is left to the one `advance` at the end of the shape's rule. -/
def Shape.LeavesPc : Shape → Prop
  | .reads body => ∀ m s, (body m s).pc = s.pc
  | .modifies _ | .stores _ => True
  | .implied body => ∀ s, (body s).pc = s.pc
  | .branch _ _ | .transfer _ => False

/-- Such a shape advances PC by the length of the operand's mode. -/
theorem Shape.effect_pc {shape : Shape} (h : shape.LeavesPc) {o : Operand} (ht : shape.takes o = true) (s : State) :
    (shape.effect o s).pc = s.pc + BitVec.ofNat 16 o.mode.length := by
  cases shape with
  | reads body =>
    have hbody (m t) : (body m t).pc = t.pc := h m t
    cases o with
    | imm b => simp [Shape.effect, immediate, hbody, Operand.mode]
    | mem form => simp [Shape.effect, fromMemory, hbody, Operand.mode, formLength]
    | imp | acc | rel _ | ind _ => cases ht
  | modifies op =>
    cases o with
    | acc => rfl
    | mem form => simp [Shape.effect, modifyMemory_eq, Operand.mode, formLength]
    | imp | imm _ | rel _ | ind _ => cases ht
  | stores value =>
    cases o with
    | mem form => simp [Shape.effect, storeTo_eq, Operand.mode, formLength]
    | imp | acc | imm _ | rel _ | ind _ => cases ht
  | implied body =>
    have hbody : (body s).pc = s.pc := h s
    cases o with
    | imp => simp [Shape.effect, Machine.implied, hbody, Operand.mode]
    | acc | imm _ | mem _ | rel _ | ind _ => cases ht
  | branch flag value => exact h.elim
  | transfer effect => exact h.elim

/-- No rule but a control transfer's assigns PC itself. -/
theorem shapeOf_leavesPc {m : Mnemonic} (hm : m ∉ controlTransfers) : (shapeOf m).LeavesPc := by
  cases m
  case ora | and | eor | adc | sbc | cmp | cpx | cpy | bit | lda | ldx | ldy => exact fun _ _ => rfl
  case asl | lsr | rol | ror | inc | dec | sta | stx | sty => exact trivial
  case inx | iny | dex | dey | tax | txa | tay | tya | tsx | txs => exact fun _ => rfl
  case clc | sec | cli | sei | cld | sed | clv | nop => exact fun _ => rfl
  case pha | php => exact fun s => s.push_pc _
  case pla | plp => exact State.pull_pc
  case bpl | bmi | bvc | bvs | bcc | bcs | bne | beq | jmp | jsr | rts | rti | brk => exact absurd (by decide) hm

/-- `PcAfter` as a sum of words. -/
theorem pcAfter_of_pc_eq {s t : State} {n : Nat} (h : t.pc = s.pc + BitVec.ofNat 16 n) : PcAfter s t n := by
  rw [PcAfter, h, BitVec.toNat_add, BitVec.toNat_ofNat, Nat.add_mod_mod]

/-- Settles O52: every shape but a branch's and a transfer's ends in one `advance` by its mode's length. -/
theorem pcAdvancesByLengthUnlessControlTransfer : Obligations.PcAdvancesByLengthUnlessControlTransfer := by
  refine ⟨fun i s hi => ⟨_, exec_eq i s, ?_⟩, ?_⟩
  · exact pcAfter_of_pc_eq (Shape.effect_pc (shapeOf_leavesPc hi) (shape_takes i) s)
  · rintro ⟨⟩ <;> rfl

end Sys2Proof.Machine
end

section

namespace Sys2Proof.Machine

open Sys2Proof.Claims

/-- Settles O46: `exec` is the effect of the mnemonic's shape, which writes neither RUN nor a parameter and keeps RAM in
canonical form. -/
theorem everyInstructionCompletes : Obligations.EveryInstructionCompletes := by
  intro i s
  have hw := exec_writesOnly (exec_eq i s)
  exact ⟨_, exec_eq i s, hw.run, hw.params, hw.wf⟩

/-! ## Instructions that read one operand (41_logic_arith.md R130, 43_load_store_transfer.md R170) -/

/-- The byte registers of the core are the same in both states (10_state.md R20, R21, R23). -/
structure SameRegisters (s t : State) : Prop where
  a : t.a = s.a
  x : t.x = s.x
  y : t.y = s.y
  sp : t.sp = s.sp
  p : t.p = s.p

theorem SameRegisters.flag {s t : State} (h : SameRegisters s t) (f : Flag) : t.flag f = s.flag f :=
  congrArg (getFlag · f) h.p

/-- The body of a rule computes byte registers from the core, and neither reads nor writes the environment's record. -/
def ComputesRegisters (body : Byte → State → State) : Prop :=
  ∀ m s u, SameCore s u →
    body m u = { u with a := (body m s).a, x := (body m s).x, y := (body m s).y, p := (body m s).p }

/-- The bodies of the twelve operand-reading mnemonics are of this kind, and no other mnemonic has the shape. -/
theorem computesRegisters_of_shapeOf {m : Mnemonic} {body : Byte → State → State} (h : shapeOf m = .reads body) :
    ComputesRegisters body := by
  intro b s u hcore
  rw [hcore]
  cases m
  case ora | and | eor | adc | sbc | cmp | cpx | cpy | bit | lda | ldx | ldy => cases h; rfl
  all_goals cases h

/-- The state after such a body, run in the state after the operand reads, and the advance of PC. -/
theorem ComputesRegisters.advance {body : Byte → State → State} (h : ComputesRegisters body) {s u : State}
    (hcore : SameCore s u) (m : Byte) (n : Nat) :
    NoStore s u ((body m u).advance n) ∧ PcAfter s ((body m u).advance n) n ∧
      SameRegisters (body m s) ((body m u).advance n) := by
  obtain ⟨-, -, -, hsp, hpc, -, hram, hrun, hparams⟩ := (sameCore_iff s u).1 hcore
  have hsp' : (body m s).sp = s.sp := by rw [h m s s (SameCore.refl s)]
  rw [h m s u hcore]
  refine ⟨⟨fun b => congrArg (Memory.read · b.toNat) hram, hparams, hrun, rfl, rfl, rfl⟩, ?_, ?_⟩
  · exact pcAfter_of_pc_eq (congrArg (· + BitVec.ofNat 16 n) hpc)
  · exact ⟨rfl, rfl, rfl, hsp.trans hsp'.symm, rfl⟩

/-- An instruction that reads one operand completes, stores nothing and advances PC; its byte registers are those its body
computes from the operand byte. -/
theorem readsOperand_of_shapeOf {i : Instr} {body : Byte → State → State} (hshape : shapeOf i.mnemonic = .reads body)
    {s : State} {post : Byte → State → Prop} (hpost : ∀ m t, SameRegisters (body m s) t → post m t) :
    ReadsOperand i s post := by
  have hbody := computesRegisters_of_shapeOf hshape
  obtain ⟨b, ho, hexec⟩ | ⟨form, ho, hexec⟩ := exec_reads hshape
  · obtain ⟨hstore, hpc, hregs⟩ := hbody.advance (SameCore.refl s) b i.mode.length
    refine ⟨b, s, _, congrArg (dataByte s) ho, ?_, hstore, hpc, hpost b _ hregs⟩
    rw [hexec, immediate, Instr.mode, ho, Operand.mode]
  · obtain ⟨hstore, hpc, hregs⟩ :=
      hbody.advance (s.busRead_sameCore (s.resolve form).1) (s.busRead (s.resolve form).1).1 i.mode.length
    refine ⟨_, _, _, congrArg (dataByte s) ho, ?_, hstore, hpc, hpost _ _ hregs⟩
    rw [hexec, fromMemory, State.loadForm_eq, formLength, Instr.mode, ho, Operand.mode]

/-! ## The conditions on flags (10_state.md R26, R27) -/

/-- A list of written flags may be written in another order, or with more flags. -/
theorem flagsKept_of_subset {written written' : List Flag} {s t : State} (h : FlagsKept written s t)
    (hsub : written ⊆ written') : FlagsKept written' s t :=
  fun f hf => h f fun hmem => hf (hsub hmem)

theorem beq_zero_iff (b : Byte) : (b == 0) = true ↔ b.toNat = 0 :=
  beq_iff_eq.trans BitVec.toNat_inj.symm

/-- The two flags in the model's words are the two of `NZ` in numbers. -/
theorem nz_of_flags {r : Byte} {t : State} (hn : t.flag .negative = r.msb) (hz : t.flag .zero = (r == 0)) : NZ r t :=
  ⟨hn, hz ▸ beq_zero_iff r⟩

/-! ## Logic (41_logic_arith.md R131 to R133) -/

/-- A body that puts `r` in A and its Negative and Zero in P does what a logic instruction does. -/
theorem accumulatorNZ_of_sameRegisters {s t : State} {r : Byte} (h : SameRegisters ((s.setA r).setNZ r) t) :
    AccumulatorNZ s t r :=
  ⟨h.a, ⟨h.x, h.y, h.sp⟩,
    nz_of_flags ((h.flag _).trans (getFlag_deriveNZ ..)) ((h.flag _).trans (getFlag_deriveNZ ..)),
    fun f hf => (h.flag f).trans (deriveNZ_flag_kept r s.p f hf)⟩

/-- Settles O15: each of the three bodies puts its result in A and derives Negative and Zero from it. -/
theorem logicInstructionsResult : Obligations.LogicInstructionsResult := by
  refine ⟨rfl, rfl, rfl, fun i s => ⟨fun h => ?_, fun h => ?_, fun h => ?_⟩⟩ <;>
    exact readsOperand_of_shapeOf (congrArg shapeOf h) fun _ _ => accumulatorNZ_of_sameRegisters

/-! ## Add and subtract with carry (41_logic_arith.md R134, R135, R141) -/

/-- Bit 7 of a byte as a number. -/
theorem getLsbD_seven (b : Byte) : b.getLsbD 7 = decide (128 ≤ b.toNat) :=
  BitVec.msb_eq_decide b

/-- A byte as a two's-complement number. -/
theorem toInt_eq_ite (b : Byte) : b.toInt = if 128 ≤ b.toNat then (b.toNat : Int) - 256 else b.toNat := by
  rw [BitVec.toInt_eq_msb_cond, BitVec.msb_eq_decide]
  simp

/-- Carry after `ADC` is bit 8 of the exact sum. -/
theorem addWithCarry_carry_iff (a m p : Byte) : getFlag (addWithCarry a m p).2 .carry = true ↔
    255 < a.toNat + m.toNat + (getFlag p .carry).toNat := by
  rw [addWithCarry_flag]
  exact decide_eq_true_iff

/-- Overflow after `ADC`: the operands have the same sign and the result's differs. -/
theorem addWithCarry_overflow_iff (a m p : Byte) : getFlag (addWithCarry a m p).2 .overflow = true ↔
    a.getLsbD 7 = m.getLsbD 7 ∧ (addWithCarry a m p).1.getLsbD 7 ≠ a.getLsbD 7 := by
  simp [addWithCarry_flag, BitVec.msb_eq_getLsbD_last]

/-- Overflow after `ADC` as a signed range: the sum of two numbers of one sign, and no other, can leave the range, and then
the sign of the result is wrong. -/
theorem addWithCarry_overflow_iff_signed (a m p : Byte) : getFlag (addWithCarry a m p).2 .overflow = true ↔
    a.toInt + m.toInt + (getFlag p .carry).toNat < -128 ∨ 127 < a.toInt + m.toInt + (getFlag p .carry).toNat := by
  have ha := a.isLt
  have hm := m.isLt
  have hc := (getFlag p .carry).toNat_le
  rw [addWithCarry_overflow_iff, getLsbD_seven, getLsbD_seven, getLsbD_seven, addWithCarry_result, toInt_eq_ite,
    toInt_eq_ite, ne_eq, decide_eq_decide, decide_eq_decide]
  omega

/-- The operand that `SBC` hands to `ADC`, as a number. -/
theorem xor_ones_toNat (m : Byte) : (m ^^^ 0xFF).toNat = 255 - m.toNat := by
  rw [show (0xFF : Byte) = BitVec.allOnes 8 from rfl, BitVec.xor_allOnes, BitVec.toNat_not]

theorem xor_ones_toInt (m : Byte) : (m ^^^ 0xFF).toInt = -m.toInt - 1 := by
  have hm := m.isLt
  rw [toInt_eq_ite, toInt_eq_ite, xor_ones_toNat]
  omega

theorem xor_ones_getLsbD_seven (m : Byte) : (m ^^^ 0xFF).getLsbD 7 = !m.getLsbD 7 := by
  simp

/-- What `ADC` and `SBC` leave but for the values of A, Carry and Overflow: Negative and Zero from A, and the frame. -/
theorem addWithCarry_frame {s t : State} {m : Byte}
    (h : SameRegisters ((s.setA (addWithCarry s.a m s.p).1).setP (addWithCarry s.a m s.p).2) t) :
    NZ t.a t ∧ XYSpKept s t ∧ FlagsKept [.carry, .overflow, .negative, .zero] s t := by
  refine ⟨nz_of_flags ?_ ?_, ⟨h.x, h.y, h.sp⟩, ?_⟩
  · rw [h.a, h.flag]; exact addWithCarry_flag ..
  · rw [h.a, h.flag]; exact addWithCarry_flag ..
  · have hkept : FlagsKept [.carry, .zero, .overflow, .negative] s t := fun f hf =>
      (h.flag f).trans (addWithCarry_flag_kept s.a m s.p f hf)
    exact flagsKept_of_subset hkept (by decide)

/-- Settles O16: the body of ADC is `addWithCarry` on A, the operand and the old Carry, and reads no other flag. -/
theorem adcResult : Obligations.AdcResult := by
  refine ⟨rfl, fun i s h => readsOperand_of_shapeOf (congrArg shapeOf h) fun m t ht => ?_⟩
  have ha : t.a = (addWithCarry s.a m s.p).1 := ht.a
  refine ⟨?_, ?_, ?_, addWithCarry_frame ht⟩
  · rw [ha]; exact addWithCarry_result s.a m s.p
  · rw [ht.flag]; exact addWithCarry_carry_iff s.a m s.p
  · rw [ht.flag, ha]; exact addWithCarry_overflow_iff s.a m s.p

/-- Settles O17: SBC adds the complement `255 - m`, so its Carry is set when the difference is not negative, and the complement
has the other sign. -/
theorem sbcResult : Obligations.SbcResult := by
  refine ⟨rfl, fun i s h => readsOperand_of_shapeOf (congrArg shapeOf h) fun m t ht => ?_⟩
  have ha : t.a = (addWithCarry s.a (m ^^^ 0xFF) s.p).1 := ht.a
  have hm := m.isLt
  have hc : (s.flag .carry).toNat ≤ 1 := Bool.toNat_le _
  refine ⟨?_, ?_, ?_, addWithCarry_frame ht⟩
  · have hsum : t.a.toNat = (s.a.toNat + (255 - m.toNat) + (s.flag .carry).toNat) % 256 := by
      rw [ha, addWithCarry_result, xor_ones_toNat]; rfl
    omega
  · have hcarry : t.flag .carry = true ↔ 255 < s.a.toNat + (255 - m.toNat) + (s.flag .carry).toNat := by
      rw [ht.flag, ← xor_ones_toNat]; exact addWithCarry_carry_iff s.a (m ^^^ 0xFF) s.p
    exact hcarry.trans (by omega)
  · rw [ht.flag, ha]
    refine (addWithCarry_overflow_iff s.a (m ^^^ 0xFF) s.p).trans (and_congr_left fun _ => ?_)
    rw [xor_ones_getLsbD_seven, Bool.eq_not]

/-- Settles O18: the complement that SBC adds is `-m - 1` as a signed number. -/
theorem overflowIsSignedRange : Obligations.OverflowIsSignedRange := by
  refine fun a m p => ⟨addWithCarry_overflow_iff_signed a m p, ?_⟩
  rw [subtractWithCarry, addWithCarry_overflow_iff_signed, xor_ones_toInt]
  omega

/-! ## Compare (41_logic_arith.md R137 to R139) -/

/-- The truncated difference of a compare, computed in numbers. -/
theorem sub_eq_ofNat (reg m : Byte) : reg - m = BitVec.ofNat 8 (reg.toNat + 256 - m.toNat) := by
  have hm := m.isLt
  apply BitVec.eq_of_toNat_eq
  rw [BitVec.toNat_sub, BitVec.toNat_ofNat]
  omega

/-- A body that writes only the flags of a compare does what a compare does. -/
theorem compared_of_sameRegisters {s t : State} {reg m : Byte} (h : SameRegisters (s.setP (compareFlags reg m s.p)) t) :
    Compared s t reg m := by
  have hflag (f) : t.flag f = getFlag (compareFlags reg m s.p) f := h.flag f
  refine ⟨h.a, ⟨h.x, h.y, h.sp⟩, ?_, sub_eq_ofNat reg m ▸ nz_of_flags ?_ ?_, ?_⟩
  · simp [hflag, compareFlags_flag, BitVec.le_def]
  · exact (hflag _).trans (compareFlags_flag ..)
  · exact (hflag _).trans (compareFlags_flag ..)
  · have hkept : FlagsKept [.carry, .zero, .negative] s t := fun f hf =>
      (hflag f).trans (compareFlags_flag_kept reg m s.p f hf)
    exact flagsKept_of_subset hkept (by decide)

/-- Settles O19: CMP compares A. -/
theorem cmpResult : Obligations.CmpResult :=
  ⟨rfl, fun _ _ h => readsOperand_of_shapeOf (congrArg shapeOf h) fun _ _ => compared_of_sameRegisters⟩

/-- Settles O20: CPX compares X and CPY compares Y. -/
theorem cpxCpyResult : Obligations.CpxCpyResult :=
  ⟨rfl, rfl, fun _ _ =>
    ⟨fun h => readsOperand_of_shapeOf (congrArg shapeOf h) fun _ _ => compared_of_sameRegisters,
      fun h => readsOperand_of_shapeOf (congrArg shapeOf h) fun _ _ => compared_of_sameRegisters⟩⟩

/-! ## Bit test (41_logic_arith.md R140) -/

/-- Settles O21: BIT writes P alone, and its three flags are bits of the operand and of its conjunction with A. -/
theorem bitResult : Obligations.BitResult := by
  refine ⟨rfl, fun i s h => readsOperand_of_shapeOf (congrArg shapeOf h) fun m t ht => ?_⟩
  have hflag (f) : t.flag f = getFlag (bitTestFlags s.a m s.p) f := ht.flag f
  refine ⟨?_, ?_, ?_, ht.a, ⟨ht.x, ht.y, ht.sp⟩, ?_⟩
  · rw [hflag, bitTestFlags_flag]; exact beq_zero_iff (s.a &&& m)
  · exact (hflag _).trans (bitTestFlags_flag ..)
  · exact (hflag _).trans (bitTestFlags_flag ..)
  · have hkept : FlagsKept [.zero, .overflow, .negative] s t := fun f hf =>
      (hflag f).trans (bitTestFlags_flag_kept s.a m s.p f hf)
    exact flagsKept_of_subset hkept (by decide)

end Sys2Proof.Machine
end

section

namespace Sys2Proof.Machine

open Sys2Proof.Claims

/-! ## The result bytes in numbers (42_shift_incdec.md R151 to R156) -/

theorem shiftLeft_one_eq_ofNat (v : Byte) : v <<< 1 = BitVec.ofNat 8 (2 * v.toNat) := by
  apply BitVec.eq_of_toNat_eq
  simp [Nat.shiftLeft_eq, Nat.mul_comm]

theorem shiftRight_one_eq_ofNat (v : Byte) : v >>> 1 = BitVec.ofNat 8 (v.toNat / 2) := by
  have hv := v.isLt
  apply BitVec.eq_of_toNat_eq
  rw [BitVec.toNat_ushiftRight, Nat.shiftRight_eq_div_pow, BitVec.toNat_ofNat]
  omega

/-- The carry comes in at the bit that the shift to the left has cleared. -/
theorem shiftLeft_one_or_eq_ofNat (v : Byte) (c : Bool) :
    v <<< 1 ||| (if c then 0x01 else 0x00) = BitVec.ofNat 8 (2 * v.toNat + c.toNat) := by
  have hin : 2 * v.toNat + c.toNat = 2 * v.toNat ||| c.toNat := Nat.two_pow_add_eq_or_of_lt (i := 1) c.toNat_lt v.toNat
  rw [hin, BitVec.ofNat_or, ← shiftLeft_one_eq_ofNat]
  cases c <;> rfl

/-- The carry comes in at the bit that the shift to the right has cleared. -/
theorem shiftRight_one_or_eq_ofNat (v : Byte) (c : Bool) :
    v >>> 1 ||| (if c then 0x80 else 0x00) = BitVec.ofNat 8 (v.toNat / 2 + 128 * c.toNat) := by
  have hhalf : v.toNat / 2 < 2 ^ 7 := by have := v.isLt; omega
  have hin : v.toNat / 2 + 128 * c.toNat = v.toNat / 2 ||| 128 * c.toNat := by
    rw [Nat.add_comm, Nat.or_comm]
    exact Nat.two_pow_add_eq_or_of_lt hhalf _
  rw [hin, BitVec.ofNat_or, ← shiftRight_one_eq_ofNat]
  cases c <;> rfl

theorem add_one_eq_ofNat (v : Byte) : v + 1 = BitVec.ofNat 8 (v.toNat + 1) := by
  rw [BitVec.ofNat_add, BitVec.ofNat_toNat, BitVec.setWidth_eq]
  rfl

theorem sub_one_eq_ofNat (v : Byte) : v - 1 = BitVec.ofNat 8 (v.toNat + 255) :=
  sub_eq_ofNat v 1

/-! ## Read-modify-write instructions (42_shift_incdec.md R150) -/

/-- The flag clauses of `Modifies`: Negative and Zero from the new byte `r`, Carry from the old byte `v` if the instruction
writes it, and every other flag of `s` kept. -/
def ModifiesFlags (carry : Option (Byte → Bool)) (v r : Byte) (s t : State) : Prop :=
  NZ r t ∧ (∀ c, carry = some c → t.flag .carry = c v ∧ FlagsKept [.carry, .negative, .zero] s t) ∧
    (carry = none → FlagsKept [.negative, .zero] s t)

/-- The status byte of a shift or rotate. -/
theorem modifiesFlags_of_shifted {s t : State} {v r : Byte} {c : Byte → Bool} (h : t.p = (shifted r (c v) s.p).2) :
    ModifiesFlags (some c) v r s t := by
  have hflag (f) : t.flag f = getFlag (shifted r (c v) s.p).2 f := congrArg (getFlag · f) h
  have hkept : FlagsKept [.carry, .zero, .negative] s t := fun f hf => (hflag f).trans (shifted_flag_kept r (c v) s.p f hf)
  refine ⟨nz_of_flags ((hflag _).trans (shifted_flag ..)) ((hflag _).trans (shifted_flag ..)), ?_, nofun⟩
  rintro _ ⟨⟩
  exact ⟨(hflag _).trans (shifted_flag ..), flagsKept_of_subset hkept (by decide)⟩

/-- The status byte of an increment or decrement. -/
theorem modifiesFlags_of_deriveNZ {s t : State} {v r : Byte} (h : t.p = deriveNZ r s.p) :
    ModifiesFlags none v r s t := by
  have hflag (f) : t.flag f = getFlag (deriveNZ r s.p) f := congrArg (getFlag · f) h
  exact ⟨nz_of_flags ((hflag _).trans (getFlag_deriveNZ ..)) ((hflag _).trans (getFlag_deriveNZ ..)), nofun,
    fun _ f hf => (hflag f).trans (deriveNZ_flag_kept r s.p f hf)⟩

/-- The computation `op` gives the new byte `result` and the status byte of `ModifiesFlags`. -/
def ComputesByte (op : Byte → Byte → Byte × Byte) (result : Byte → Bool → Byte) (carry : Option (Byte → Bool)) : Prop :=
  ∀ (v : Byte) (s : State), (op v s.p).1 = result v (s.flag .carry) ∧
    ∀ t : State, t.p = (op v s.p).2 → ModifiesFlags carry v (op v s.p).1 s t

/-- A read-modify-write in Accumulator mode. -/
theorem modifyAcc_frame (op : Byte → Byte → Byte × Byte) (s : State) :
    (modifyAcc op s).a = (op s.a s.p).1 ∧ (modifyAcc op s).p = (op s.a s.p).2 ∧ XYSpKept s (modifyAcc op s) ∧
      NoStore s s (modifyAcc op s) ∧ PcAfter s (modifyAcc op s) 1 :=
  ⟨rfl, rfl, ⟨rfl, rfl, rfl⟩, ⟨fun _ => rfl, rfl, rfl, rfl, rfl, rfl⟩, pcAfter_of_pc_eq rfl⟩

theorem sameCore_of_busRead {s u : State} {addr : Word} {v : Byte} (h : s.busRead addr = (v, u)) : SameCore s u := by
  simpa only [h] using s.busRead_sameCore addr

/-- A read-modify-write of memory: one write of the new byte, in the state `u` after the one read of the old byte `v`. -/
theorem modifyMemory_frame (op : Byte → Byte → Byte × Byte) (form : MemForm) {s u : State} {v : Byte}
    (hwf : s.ram.wf = true) (hread : s.busRead (s.resolve form).1 = (v, u)) :
    (modifyMemory op form s).a = s.a ∧ (modifyMemory op form s).p = (op v s.p).2 ∧ XYSpKept s (modifyMemory op form s) ∧
      Stored (s.resolve form).1 (op v s.p).1 u (modifyMemory op form s) ∧
      PcAfter s (modifyMemory op form s) (formLength form) := by
  obtain ⟨ha, hx, hy, hsp, hpc, -, hram, -, -⟩ := (sameCore_iff s u).1 (sameCore_of_busRead hread)
  obtain ⟨hstored, -, -⟩ :=
    busWriteReachesRamOrTheCollaborator u (s.resolve form).1 (op v s.p).1 (hram ▸ hwf)
  simp only [modifyMemory_eq, hread]
  refine ⟨by simpa using ha, rfl, ⟨by simpa using hx, by simpa using hy, by simpa using hsp⟩, hstored, ?_⟩
  exact pcAfter_of_pc_eq (by simp [hpc])

/-- An instruction of this shape modifies its location in both kinds of form as its computation says. -/
theorem modifies_of_shapeOf {i : Instr} {op : Byte → Byte → Byte × Byte} (hshape : shapeOf i.mnemonic = .modifies op)
    {result : Byte → Bool → Byte} {carry : Option (Byte → Bool)} (hop : ComputesByte op result carry)
    {s : State} (hwf : s.ram.wf = true) : Modifies i s result carry := by
  obtain ⟨ho, hexec⟩ | ⟨form, ho, hexec⟩ := exec_modifies hshape
  · obtain ⟨ha, hp, hkept, hstore, hpc⟩ := modifyAcc_frame op s
    obtain ⟨hresult, hflags⟩ := hop s.a s
    obtain ⟨hnz, hcarry, hnone⟩ := hflags _ hp
    have hlen : i.mode.length = 1 := by rw [Instr.mode, ho]; rfl
    refine ⟨.inl ho, fun _ => ?_, fun _ hm => nomatch ho.symm.trans hm⟩
    exact ⟨_, hexec s, ha.trans hresult, hkept, ha ▸ hnz, hcarry, hnone, hstore, hlen ▸ hpc⟩
  · obtain ⟨v, u, hread⟩ : ∃ v u, s.busRead (s.resolve form).1 = (v, u) := ⟨_, _, rfl⟩
    obtain ⟨ha, hp, hkept, hstored, hpc⟩ := modifyMemory_frame op form hwf hread
    obtain ⟨hresult, hflags⟩ := hop v s
    obtain ⟨hnz, hcarry, hnone⟩ := hflags _ hp
    have hlen : i.mode.length = formLength form := by rw [Instr.mode, ho]; rfl
    rw [hresult] at hnz hstored
    refine ⟨.inr ⟨form, ho⟩, fun hm => ?acc, fun form' hm => ?mem⟩
    case acc => cases ho.symm.trans hm
    case mem =>
      obtain rfl : form = form' := Operand.mem.inj (ho.symm.trans hm)
      exact ⟨_, v, u, _, rfl, hread, sameCore_of_busRead hread, hexec s, ha, hkept, hnz, hcarry, hnone, hstored,
        hlen ▸ hpc⟩

/-! ## The six computations (42_shift_incdec.md R151 to R156) -/

/-- A computation that is `shifted` of its result and of the bit shifted out. -/
theorem computesByte_of_shifted {op : Byte → Byte → Byte × Byte} {result : Byte → Bool → Byte} {c : Byte → Bool}
    (hop : ∀ v p, op v p = shifted (result v (getFlag p .carry)) (c v) p) : ComputesByte op result (some c) := by
  intro v s
  rw [hop]
  exact ⟨rfl, fun _ => modifiesFlags_of_shifted⟩

/-- A computation that derives Negative and Zero from its result and writes no Carry. -/
theorem computesByte_of_deriveNZ {op : Byte → Byte → Byte × Byte} {result : Byte → Byte}
    (hop : ∀ v p, op v p = (result v, deriveNZ (result v) p)) : ComputesByte op (fun v _ => result v) none := by
  intro v s
  rw [hop]
  exact ⟨rfl, fun _ => modifiesFlags_of_deriveNZ⟩

theorem shiftLeft_computes :
    ComputesByte shiftLeft (fun v _ => BitVec.ofNat 8 (2 * v.toNat)) (some fun v => v.getLsbD 7) :=
  computesByte_of_shifted fun v p => congrArg (shifted · (v.getLsbD 7) p) (shiftLeft_one_eq_ofNat v)

theorem shiftRight_computes :
    ComputesByte shiftRight (fun v _ => BitVec.ofNat 8 (v.toNat / 2)) (some fun v => v.getLsbD 0) :=
  computesByte_of_shifted fun v p => congrArg (shifted · (v.getLsbD 0) p) (shiftRight_one_eq_ofNat v)

theorem rotateLeft_computes :
    ComputesByte rotateLeft (fun v c => BitVec.ofNat 8 (2 * v.toNat + c.toNat)) (some fun v => v.getLsbD 7) :=
  computesByte_of_shifted fun v p => congrArg (shifted · (v.getLsbD 7) p) (shiftLeft_one_or_eq_ofNat v _)

theorem rotateRight_computes :
    ComputesByte rotateRight (fun v c => BitVec.ofNat 8 (v.toNat / 2 + 128 * c.toNat)) (some fun v => v.getLsbD 0) :=
  computesByte_of_shifted fun v p => congrArg (shifted · (v.getLsbD 0) p) (shiftRight_one_or_eq_ofNat v _)

theorem increment_computes : ComputesByte increment (fun v _ => BitVec.ofNat 8 (v.toNat + 1)) none :=
  computesByte_of_deriveNZ fun v p => congrArg (fun r => (r, deriveNZ r p)) (add_one_eq_ofNat v)

theorem decrement_computes : ComputesByte decrement (fun v _ => BitVec.ofNat 8 (v.toNat + 255)) none :=
  computesByte_of_deriveNZ fun v p => congrArg (fun r => (r, deriveNZ r p)) (sub_one_eq_ofNat v)

/-! ## The obligations on shifts, rotates, INC and DEC -/

/-- Settles O22: each of the four mnemonics is a read-modify-write, and its computation gives the byte and the flags. -/
theorem shiftsAndRotatesResult : Obligations.ShiftsAndRotatesResult :=
  ⟨rfl, rfl, rfl, rfl, fun _ _ hwf =>
    ⟨fun h => modifies_of_shapeOf (congrArg shapeOf h) shiftLeft_computes hwf,
      fun h => modifies_of_shapeOf (congrArg shapeOf h) shiftRight_computes hwf,
      fun h => modifies_of_shapeOf (congrArg shapeOf h) rotateLeft_computes hwf,
      fun h => modifies_of_shapeOf (congrArg shapeOf h) rotateRight_computes hwf⟩⟩

/-- Settles O23: both mnemonics are read-modify-writes whose computation leaves Carry alone. -/
theorem incDecResult : Obligations.IncDecResult :=
  ⟨rfl, rfl, fun _ _ hwf =>
    ⟨fun h => modifies_of_shapeOf (congrArg shapeOf h) increment_computes hwf,
      fun h => modifies_of_shapeOf (congrArg shapeOf h) decrement_computes hwf⟩⟩

/-! ## INX, INY, DEX and DEY (42_shift_incdec.md R157 to R160) -/

/-- A new byte in X with its Negative and Zero, and PC advanced: nothing else changes. -/
theorem setX_setNZ_advance_frame (s : State) (r : Byte) {t : State} (ht : t = ((s.setX r).setNZ r).advance 1) :
    NZ t.x t ∧ t.a = s.a ∧ t.y = s.y ∧ t.sp = s.sp ∧ FlagsKept [.negative, .zero] s t ∧ NoStore s s t ∧ PcAfter s t 1 := by
  obtain ⟨hnz, -, hkept⟩ : ModifiesFlags none s.x r s t := modifiesFlags_of_deriveNZ (congrArg State.p ht)
  subst ht
  exact ⟨hnz, rfl, rfl, rfl, hkept rfl, ⟨fun _ => rfl, rfl, rfl, rfl, rfl, rfl⟩, pcAfter_of_pc_eq rfl⟩

/-- A new byte in Y with its Negative and Zero, and PC advanced: nothing else changes. -/
theorem setY_setNZ_advance_frame (s : State) (r : Byte) {t : State} (ht : t = ((s.setY r).setNZ r).advance 1) :
    NZ t.y t ∧ t.a = s.a ∧ t.x = s.x ∧ t.sp = s.sp ∧ FlagsKept [.negative, .zero] s t ∧ NoStore s s t ∧ PcAfter s t 1 := by
  obtain ⟨hnz, -, hkept⟩ : ModifiesFlags none s.y r s t := modifiesFlags_of_deriveNZ (congrArg State.p ht)
  subst ht
  exact ⟨hnz, rfl, rfl, rfl, hkept rfl, ⟨fun _ => rfl, rfl, rfl, rfl, rfl, rfl⟩, pcAfter_of_pc_eq rfl⟩

/-- Settles O24: each body writes the new byte to its register and Negative and Zero from it. -/
theorem indexRegisterIncrementAndDecrement : Obligations.IndexRegisterIncrementAndDecrement :=
  ⟨rfl, rfl, rfl, rfl, fun s =>
    ⟨⟨_, rfl, congrArg BitVec.toNat (add_one_eq_ofNat s.x), setX_setNZ_advance_frame s _ rfl⟩,
      ⟨_, rfl, congrArg BitVec.toNat (add_one_eq_ofNat s.y), setY_setNZ_advance_frame s _ rfl⟩,
      ⟨_, rfl, congrArg BitVec.toNat (sub_one_eq_ofNat s.x), setX_setNZ_advance_frame s _ rfl⟩,
      ⟨_, rfl, congrArg BitVec.toNat (sub_one_eq_ofNat s.y), setY_setNZ_advance_frame s _ rfl⟩⟩⟩

/-! ## Rotates as rotations of nine bits (42_shift_incdec.md R153, R154) -/

/-- The byte and the Carry of a status byte as one 9-bit number, Carry on top: what a rotate rotates. -/
def carryAndByte (q : Byte × Byte) : BitVec 9 :=
  BitVec.cons (getFlag q.2 .carry) q.1

theorem carryAndByte_inj {q q' : Byte × Byte} (h : carryAndByte q = carryAndByte q') :
    q.1 = q'.1 ∧ getFlag q.2 .carry = getFlag q'.2 .carry :=
  ⟨by simpa [carryAndByte] using congrArg (BitVec.setWidth 8) h, by simpa [carryAndByte] using congrArg BitVec.msb h⟩

theorem carryAndByte_shifted (r : Byte) (out : Bool) (p : Byte) : carryAndByte (shifted r out p) = BitVec.cons out r :=
  congrArg (BitVec.cons · r) (shifted_flag r out p .carry)

/-- Rotating one place to the left: the top bit comes in at the bottom and every other bit moves up. -/
theorem cons_rotateLeft_one (v : Byte) (c : Bool) :
    (BitVec.cons c v).rotateLeft 1 = BitVec.cons (v.getLsbD 7) (v <<< 1 ||| (if c then 0x01 else 0x00)) := by
  ext i hi
  have hin (h : i < 8) : (if c then 0x01 else 0x00 : Byte)[i] = (decide (i = 0) && c) := by cases c <;> simp
  grind

/-- Rotating one place to the right: the bottom bit comes in at the top and every other bit moves down. -/
theorem cons_rotateRight_one (v : Byte) (c : Bool) :
    (BitVec.cons c v).rotateRight 1 = BitVec.cons (v.getLsbD 0) (v >>> 1 ||| (if c then 0x80 else 0x00)) := by
  ext i hi
  have hin (h : i < 8) : (if c then 0x80 else 0x00 : Byte)[i] = (decide (i = 7) && c) := by
    cases c
    · simp
    · exact (BitVec.getElem_twoPow (i := 7) h).trans (Bool.and_true _).symm
  grind

theorem carryAndByte_rotateLeft (q : Byte × Byte) :
    carryAndByte (rotateLeft q.1 q.2) = (carryAndByte q).rotateLeft 1 := by
  rw [rotateLeft, carryAndByte_shifted, carryAndByte, cons_rotateLeft_one]

theorem carryAndByte_rotateRight (q : Byte × Byte) :
    carryAndByte (rotateRight q.1 q.2) = (carryAndByte q).rotateRight 1 := by
  rw [rotateRight, carryAndByte_shifted, carryAndByte, cons_rotateRight_one]

/-- Nine places are the whole width, so each of the nine bits is back where it was. -/
theorem rotateLeft_one_iterate_nine (x : BitVec 9) : (BitVec.rotateLeft · 1)^[9] x = x := by
  ext i hi
  interval_cases i <;> simp [BitVec.getElem_rotateLeft]

theorem rotateRight_one_rotateLeft_one (x : BitVec 9) : (x.rotateLeft 1).rotateRight 1 = x := by
  ext i hi
  grind

/-- Settles O41: a rotate turns Carry and byte together by one place of nine. -/
theorem nineRotationsRestore : Obligations.NineRotationsRestore := by
  intro v p
  have hsemi : Function.Semiconj carryAndByte (fun q => rotateLeft q.1 q.2) (BitVec.rotateLeft · 1) :=
    carryAndByte_rotateLeft
  have hnine : carryAndByte ((fun q : Byte × Byte => rotateLeft q.1 q.2)^[9] (v, p)) = carryAndByte (v, p) :=
    (hsemi.iterate_right 9 (v, p)).trans (rotateLeft_one_iterate_nine _)
  have hback : carryAndByte (rotateRight (rotateLeft v p).1 (rotateLeft v p).2) = carryAndByte (v, p) := by
    rw [carryAndByte_rotateRight, carryAndByte_rotateLeft (v, p), rotateRight_one_rotateLeft_one]
  obtain ⟨hbyte, hcarry⟩ := carryAndByte_inj hnine
  obtain ⟨hbyte', hcarry'⟩ := carryAndByte_inj hback
  exact ⟨hbyte, hcarry, hbyte', hcarry'⟩

end Sys2Proof.Machine
end

section

namespace Sys2Proof.Machine

open Sys2Proof.Claims

/-! ## Loads (43_load_store_transfer.md R171 to R173) -/

/-- A status byte derived from `r` has Negative and Zero of `r` and every other flag as before. -/
theorem nz_flagsKept_of_deriveNZ {s t : State} {r : Byte} (h : t.p = deriveNZ r s.p) :
    NZ r t ∧ FlagsKept [.negative, .zero] s t := by
  obtain ⟨hnz, -, hkept⟩ := modifiesFlags_of_deriveNZ (v := r) h
  exact ⟨hnz, hkept rfl⟩

/-- Settles O25: each of the three bodies puts the operand byte in its register and derives Negative and Zero from it. -/
theorem loadsResult : Obligations.LoadsResult := by
  refine ⟨rfl, rfl, rfl, fun i s => ⟨fun h => ?lda, fun h => ?ldx, fun h => ?ldy⟩⟩ <;>
    refine readsOperand_of_shapeOf (congrArg shapeOf h) fun m t ht => ?_ <;>
    obtain ⟨hnz, hkept⟩ : NZ m t ∧ FlagsKept [.negative, .zero] s t := nz_flagsKept_of_deriveNZ ht.p
  case lda => exact ⟨ht.a, hnz, ht.x, ht.y, ht.sp, hkept⟩
  case ldx => exact ⟨ht.x, hnz, ht.a, ht.y, ht.sp, hkept⟩
  case ldy => exact ⟨ht.y, hnz, ht.a, ht.x, ht.sp, hkept⟩

/-! ## Stores (43_load_store_transfer.md R170, R174 to R176) -/

/-- A store does its one write at the resolved address in the state before it, since resolving the address changes nothing. -/
theorem storeTo_frame (v : Byte) (form : MemForm) {s : State} (hwf : s.ram.wf = true) :
    Stored (s.resolve form).1 v s (storeTo v form s) ∧ PcAfter s (storeTo v form s) (formLength form) ∧
      (storeTo v form s).a = s.a ∧ XYSpKept s (storeTo v form s) ∧ (storeTo v form s).p = s.p := by
  obtain ⟨hstored, -, -⟩ := busWriteReachesRamOrTheCollaborator s (s.resolve form).1 v hwf
  rw [storeTo_eq]
  exact ⟨hstored, pcAfter_of_pc_eq (by simp), by simp, ⟨by simp, by simp, by simp⟩, by simp⟩

/-- An instruction of this shape stores the byte its mnemonic names. -/
theorem stores_of_shapeOf {i : Instr} {value : State → Byte} (hshape : shapeOf i.mnemonic = .stores value) {s : State}
    (hwf : s.ram.wf = true) : Stores i s (value s) := by
  obtain ⟨form, ho, hexec⟩ := exec_stores hshape
  have hlen : i.mode.length = formLength form := by rw [Instr.mode, ho]; rfl
  obtain ⟨hstored, hpc, hkept⟩ := storeTo_frame (value s) form hwf
  exact ⟨form, _, ho, hexec s, hstored, hlen ▸ hpc, hkept⟩

/-- Settles O26: the shapes of the three mnemonics store A, X and Y. -/
theorem storesResult : Obligations.StoresResult :=
  ⟨rfl, rfl, rfl, fun _ _ hwf =>
    ⟨fun h => stores_of_shapeOf (congrArg shapeOf h) hwf, fun h => stores_of_shapeOf (congrArg shapeOf h) hwf,
      fun h => stores_of_shapeOf (congrArg shapeOf h) hwf⟩⟩

/-! ## Transfers and NOP (43_load_store_transfer.md R178 to R183, 44_flag_branch.md R207) -/

/-- From `s` to `t` only byte registers changed (10_state.md R20, R21, R23). -/
def OnlyRegistersDiffer (s t : State) : Prop :=
  t = { s with a := t.a, x := t.x, y := t.y, sp := t.sp, p := t.p }

/-- An Implied instruction whose body writes byte registers alone stores nothing and advances PC by 1. -/
theorem implied_noStore_pcAfter {body : State → State} {s : State} (hbody : OnlyRegistersDiffer s (body s)) :
    NoStore s s (implied body s) ∧ PcAfter s (implied body s) 1 := by
  rw [implied, hbody]
  exact ⟨⟨fun _ => rfl, rfl, rfl, rfl, rfl, rfl⟩, pcAfter_of_pc_eq rfl⟩

/-- An Implied instruction that also derives its status byte from `r` writes Negative and Zero of `r` and no other flag. -/
theorem implied_nz_frame {body : State → State} {s : State} {r : Byte} (hbody : OnlyRegistersDiffer s (body s))
    (hp : (body s).p = deriveNZ r s.p) :
    NZ r (implied body s) ∧ FlagsKept [.negative, .zero] s (implied body s) ∧ NoStore s s (implied body s) ∧
      PcAfter s (implied body s) 1 := by
  obtain ⟨hnz, hkept⟩ : NZ r (implied body s) ∧ FlagsKept [.negative, .zero] s (implied body s) :=
    nz_flagsKept_of_deriveNZ hp
  exact ⟨hnz, hkept, implied_noStore_pcAfter hbody⟩

/-- Settles O27: the five bodies copy one register to another, and all but that of TXS derive Negative and Zero from it. -/
theorem transfersResult : Obligations.TransfersResult := by
  refine ⟨rfl, rfl, rfl, rfl, rfl, fun s => ⟨⟨_, rfl, ?tax⟩, ⟨_, rfl, ?txa⟩, ⟨_, rfl, ?tay⟩, ⟨_, rfl, ?tya⟩, ⟨_, rfl, ?txs⟩⟩⟩
  case tax | txa | tay | tya => exact ⟨rfl, rfl, rfl, rfl, implied_nz_frame rfl rfl⟩
  case txs => exact ⟨rfl, rfl, rfl, rfl, rfl, implied_noStore_pcAfter rfl⟩

/-- Settles O28: the body of TSX writes X alone, and that of NOP is the identity. -/
theorem tsxAndNopWriteNoFlag : Obligations.TsxAndNopWriteNoFlag := by
  refine ⟨rfl, rfl, fun s => ⟨⟨_, rfl, ?tsx⟩, ⟨_, rfl, ?nop⟩⟩⟩
  case tsx => exact ⟨rfl, rfl, rfl, rfl, rfl, implied_noStore_pcAfter rfl⟩
  case nop => exact ⟨rfl, pcAfter_of_pc_eq rfl⟩

end Sys2Proof.Machine
end

section

namespace Sys2Proof.Machine

open Sys2Proof.Claims

/-! ## Flag instructions (44_flag_branch.md R190 to R197) -/

/-- An Implied instruction whose body writes one flag changes that flag and PC, whatever the flag was. -/
theorem writesFlag_of_shapeOf {i : Instr} {opcode : Byte} {f : Flag} {v : Bool} (hencode : encode i = [opcode])
    (hshape : shapeOf i.mnemonic = .implied (State.setFlag f v)) : WritesFlag i opcode f v := by
  refine ⟨hencode, fun s => ⟨implied (State.setFlag f v) s, ?_, rfl, pcAfter_of_pc_eq rfl, ?_, fun g hg => ?_⟩⟩
  · rw [exec_eq, hshape, Shape.effect]
  · exact (getFlag_setFlag f f v s.p).trans (if_pos rfl)
  · exact (getFlag_setFlag f g v s.p).trans (if_neg (List.mem_singleton.not.1 hg))

/-- Settles O29: the body of each of the seven writes its one flag. -/
theorem flagInstructionsResult : Obligations.FlagInstructionsResult := by
  refine ⟨?clc, ?sec, ?cli, ?sei, ?cld, ?sed, ?clv⟩
  all_goals exact writesFlag_of_shapeOf rfl rfl

/-! ## Conditional branches (44_flag_branch.md R198 to R206) -/

/-- The branch target as a signed sum, reduced mod 65536 (40_addressing.md R121). -/
theorem branchTarget_eq_ofInt (pc : Word) (off : Byte) :
    branchTarget pc off = BitVec.ofInt 16 (pc.toNat + 2 + off.toInt) := by
  rw [branchTarget, signExtend16, BitVec.signExtend, BitVec.ofInt_add, BitVec.ofInt_add, BitVec.ofInt_natCast,
    BitVec.ofNat_toNat, BitVec.setWidth_eq]
  rfl

/-- `PcAfter` as a value of PC. -/
theorem pc_eq_ofNat_of_pcAfter {s t : State} {n : Nat} (h : PcAfter s t n) : t.pc = BitVec.ofNat 16 (s.pc.toNat + n) :=
  BitVec.eq_of_toNat_eq (h.trans (BitVec.toNat_ofNat _ 16).symm)

/-- A Relative instruction that branches on a flag goes to the target if the flag has the value, else to the next
instruction. -/
theorem branches_of_shapeOf {i : Byte → Instr} {opcode : Byte} {f : Flag} {v : Bool}
    (hencode : ∀ off, encode (i off) = [opcode, off]) (hoperand : ∀ off, (i off).operand = .rel off)
    (hshape : ∀ off, shapeOf (i off).mnemonic = .branch f v) : Branches i opcode f v := by
  refine fun off s => ⟨hencode off, branchIf (s.flag f == v) off s, ?_, rfl, fun htaken => ?_, fun hnot => ?_⟩
  · rw [exec_eq, hshape, hoperand, Shape.effect]
  · exact (if_pos (beq_iff_eq.2 htaken)).trans (branchTarget_eq_ofInt s.pc off)
  · exact pc_eq_ofNat_of_pcAfter (pcAfter_of_pc_eq (if_neg (mt beq_iff_eq.1 hnot)))

/-- Settles O30: each of the eight branches on its flag and value. -/
theorem branchesResult : Obligations.BranchesResult := by
  refine ⟨?bpl, ?bmi, ?bvc, ?bvs, ?bcc, ?bcs, ?bne, ?beq⟩
  all_goals exact branches_of_shapeOf (fun _ => rfl) (fun _ => rfl) (fun _ => rfl)

end Sys2Proof.Machine
end

section

namespace Sys2Proof.Machine

open Sys2Proof.Claims

/-! ## The stack pointer (10_state.md R21, 45_stack_control.md R226) -/

theorem add_one_add_one (sp : Byte) : sp + 1 + 1 = sp + 2 :=
  BitVec.add_assoc sp 1 1

theorem add_two_add_one (sp : Byte) : sp + 2 + 1 = sp + 3 :=
  BitVec.add_assoc sp 2 1

theorem sub_one_sub_one (sp : Byte) : sp - 1 - 1 = sp - 2 :=
  sub_sub sp 1 1

/-- An operation that moves SP by the same amount each time brings it back after 256 times: SP has eight bits. -/
theorem sp_iterate_256 {op : State → State} {c : Byte} (hop : ∀ u : State, (op u).sp = u.sp + c) (s : State) :
    (op^[256] s).sp = s.sp := by
  have hsemi : Function.Semiconj State.sp op (· + c) := hop
  have hmoved : (op^[256] s).sp = s.sp + 256 • c :=
    (hsemi.iterate_right 256 s).trans (add_right_iterate_apply c s.sp)
  have hzero : 256 • c = 0 := by
    rw [nsmul_eq_mul]
    exact BitVec.zero_mul
  rw [hmoved, hzero, add_zero]

/-! ## What a push changes (45_stack_control.md R215, R216) -/

theorem State.push_frame (v : Byte) (s : State) :
    s.push v = { s with sp := (s.push v).sp, ram := (s.push v).ram } := by
  rw [State.push_eq]
  rfl

@[simp] theorem State.pushWord_p (w : Word) (s : State) : (s.pushWord w).p = s.p := by simp [State.pushWord]
@[simp] theorem State.pushWord_pc (w : Word) (s : State) : (s.pushWord w).pc = s.pc := by simp [State.pushWord]

theorem State.pushWord_sp (s : State) (w : Word) : (s.pushWord w).sp = s.sp - 2 :=
  sub_one_sub_one s.sp

section
variable {s : State} (hwf : s.ram.wf = true)
include hwf

theorem State.peek_push_self (v : Byte) : (s.push v).peek (stackSlot s.sp) = v := by
  rw [State.peek_push hwf, if_pos rfl]

/-- A push leaves the slot of every other stack pointer alone. -/
theorem State.peek_push_slot_of_ne (v : Byte) {sp : Byte} (hne : sp ≠ s.sp) :
    (s.push v).peek (stackSlot sp) = s.peek (stackSlot sp) := by
  rw [State.peek_push hwf, if_neg (mt stackSlot_inj.1 hne)]

@[simp] theorem State.pushWord_wf (w : Word) : (s.pushWord w).ram.wf = true :=
  State.push_wf (State.push_wf hwf _) _

/-- The high byte of a pushed word is at the slot SP named, the low byte at the one below. -/
theorem State.peek_pushWord (w : Word) :
    (s.pushWord w).peek (stackSlot s.sp) = highByte w ∧ (s.pushWord w).peek (stackSlot (s.sp - 1)) = lowByte w := by
  have hlow : (s.push (highByte w)).sp = s.sp - 1 := s.push_sp _
  refine ⟨?_, hlow ▸ State.peek_push_self (State.push_wf hwf _) _⟩
  rw [State.pushWord, State.peek_push_slot_of_ne (State.push_wf hwf _) _ (by rw [hlow]; bv_omega),
    State.peek_push_self hwf]

/-- A byte pushed after a word, as BRK does, is at the slot below the word's. -/
theorem State.peek_pushWord_push (w : Word) (v : Byte) :
    ((s.pushWord w).push v).peek (stackSlot s.sp) = highByte w ∧
      ((s.pushWord w).push v).peek (stackSlot (s.sp - 1)) = lowByte w ∧
      ((s.pushWord w).push v).peek (stackSlot (s.sp - 2)) = v := by
  have hwf' := State.pushWord_wf hwf w
  have hsp : (s.pushWord w).sp = s.sp - 2 := s.pushWord_sp w
  obtain ⟨hhigh, hlow⟩ := State.peek_pushWord hwf w
  refine ⟨?_, ?_, hsp ▸ State.peek_push_self hwf' v⟩
  · exact (State.peek_push_slot_of_ne hwf' v (by rw [hsp]; bv_omega)).trans hhigh
  · exact (State.peek_push_slot_of_ne hwf' v (by rw [hsp]; bv_omega)).trans hlow

end

/-- The bytes of the return address that JSR and BRK push, `PC + 2` mod 65536 (45_stack_control.md R221, R224). -/
theorem returnAddress_bytes (pc : Word) :
    (highByte (pc + 2)).toNat = (pc.toNat + 2) % 65536 / 256 ∧ (lowByte (pc + 2)).toNat = (pc.toNat + 2) % 256 := by
  have hpc : (pc + 2).toNat = (pc.toNat + 2) % 65536 := BitVec.toNat_add pc 2
  rw [highByte_toNat, lowByte_toNat, hpc]
  omega

/-! ## States that differ in the stack page (45_stack_control.md R226) -/

theorem onlyStackWritten_refl (s : State) : OnlyStackWritten [] s s :=
  ⟨rfl, fun _ _ => rfl⟩

/-- A push writes one more slot of the stack page, the one SP names. -/
theorem onlyStackWritten_push {slots : List Byte} {s t : State} (h : OnlyStackWritten slots s t)
    (hwf : t.ram.wf = true) (v : Byte) : OnlyStackWritten (slots ++ [t.sp]) s (t.push v) := by
  obtain ⟨hframe, hpeek⟩ := h
  refine ⟨?_, fun b hb => ?_⟩
  · rw [State.push_frame, hframe]
  · have hslots : ∀ sp ∈ slots, b ≠ stackSlot sp := fun sp hsp => hb sp (List.mem_append_left _ hsp)
    rw [State.peek_push hwf, if_neg (hb t.sp (by simp)), hpeek b hslots]

theorem onlyStackWritten_pushWord {slots : List Byte} {s t : State} (h : OnlyStackWritten slots s t)
    (hwf : t.ram.wf = true) (w : Word) : OnlyStackWritten (slots ++ [t.sp] ++ [t.sp - 1]) s (t.pushWord w) :=
  onlyStackWritten_push (onlyStackWritten_push h hwf _) (State.push_wf hwf _) _

theorem onlyStackWritten_setPc {slots : List Byte} {s t : State} (h : OnlyStackWritten slots s t) (w : Word) :
    OnlyStackWritten slots s (t.setPc w) := by
  obtain ⟨hframe, hpeek⟩ := h
  exact ⟨congrArg (State.setPc w) hframe, hpeek⟩

/-- Outside 0x0100 to 0x01FF every byte of RAM is as before. -/
theorem onlyStackWritten_peek_outside_page {slots : List Byte} {s t : State} (h : OnlyStackWritten slots s t) {b : Word}
    (hb : b.toNat < 0x0100 ∨ 0x01FF < b.toNat) : t.peek b = s.peek b := by
  obtain ⟨-, hpeek⟩ := h
  refine hpeek b fun sp _ hslot => ?_
  have hsp := sp.isLt
  rw [hslot, stackSlot_toNat] at hb
  omega

/-! ## Push and pull of one byte (45_stack_control.md R215, R216) -/

/-- Settles O31: push and pull are a write and a read of RAM at a slot, and SP moves by one each time. -/
theorem pushAndPullOfAByte : Obligations.PushAndPullOfAByte := by
  intro s v hwf
  refine ⟨⟨State.peek_push_self hwf v, fun b hb => ?frame, ?sp, s.push_frame v⟩,
    ⟨s.sp + 1, BitVec.toNat_add s.sp 1, s.pull_eq⟩, stackSlot_toNat s.sp, ⟨?byte, ?back⟩, ?pushes, ?pulls⟩
  case frame => rw [State.peek_push hwf, if_neg hb]
  case sp => exact congrArg BitVec.toNat (sub_one_eq_ofNat s.sp)
  case byte => rw [State.pull_eq, State.push_sp, BitVec.sub_add_cancel, State.peek_push_self hwf]
  case back => rw [State.pull_eq, State.setSp_sp, State.push_sp, BitVec.sub_add_cancel]
  case pushes => exact sp_iterate_256 (fun u => (u.push_sp v).trans (BitVec.sub_eq_add_neg u.sp 1)) s
  case pulls => exact sp_iterate_256 (fun u => by rw [State.pull_eq, State.setSp_sp]) s

/-! ## PHA, PLA, PHP and PLP (45_stack_control.md R217 to R220) -/

/-- The next state of PHA and PHP: `v` is pushed and PC advanced. -/
theorem push_advance_frame {s : State} (hwf : s.ram.wf = true) (v : Byte) {t : State} (ht : t = (s.push v).advance 1) :
    t.peek (stackSlot s.sp) = v ∧ OnlyStackWritten [s.sp] s t ∧ t.p = s.p ∧ t.sp.toNat = (s.sp.toNat + 255) % 256 ∧
      PcAfter s t 1 := by
  subst ht
  refine ⟨State.peek_push_self hwf v, ?stack, s.push_p v, ?sp, ?pc⟩
  case stack => exact onlyStackWritten_setPc (onlyStackWritten_push (onlyStackWritten_refl s) hwf v) _
  case sp => exact congrArg BitVec.toNat (sub_one_eq_ofNat s.sp)
  case pc => exact pcAfter_of_pc_eq (congrArg (· + 1) (s.push_pc v))

theorem implied_plaBody_eq (s : State) :
    implied plaBody s = (((s.setSp (s.sp + 1)).setA (s.peek (stackSlot (s.sp + 1)))).setNZ
      (s.peek (stackSlot (s.sp + 1)))).advance 1 := by
  rw [implied, plaBody, State.pull_eq]
  rfl

theorem implied_plpBody_eq (s : State) :
    implied plpBody s = ((s.setSp (s.sp + 1)).setP (s.peek (stackSlot (s.sp + 1)))).advance 1 := by
  rw [implied, plpBody, State.pull_eq]
  rfl

/-- Settles O32: PHA pushes A; PLA loads A from the slot above SP and derives Negative and Zero from it. -/
theorem phaPlaResult : Obligations.PhaPlaResult := by
  refine ⟨rfl, rfl, fun s hwf => ⟨⟨_, rfl, push_advance_frame hwf s.a rfl⟩, ⟨_, rfl, ?pla⟩⟩⟩
  obtain ⟨hnz, hkept⟩ := nz_flagsKept_of_deriveNZ (congrArg State.p (implied_plaBody_eq s))
  rw [implied_plaBody_eq] at hnz hkept ⊢
  exact ⟨rfl, BitVec.toNat_add s.sp 1, hnz, hkept, rfl, pcAfter_of_pc_eq rfl⟩

/-- Settles O33: PHP pushes P; PLP loads P from the slot above SP. -/
theorem phpPlpResult : Obligations.PhpPlpResult := by
  refine ⟨rfl, rfl, fun s hwf => ⟨⟨_, rfl, push_advance_frame hwf s.p rfl⟩, ⟨_, rfl, ?plp⟩⟩⟩
  rw [implied_plpBody_eq]
  exact ⟨rfl, BitVec.toNat_add s.sp 1, rfl, pcAfter_of_pc_eq rfl⟩

/-! ## JSR, RTS and JMP (45_stack_control.md R221 to R223) -/

theorem returnFromSubroutine_eq (s : State) :
    returnFromSubroutine s = (s.setSp (s.sp + 2)).setPc
      (operandWord (s.peek (stackSlot (s.sp + 1))) (s.peek (stackSlot (s.sp + 2))) + 1) := by
  rw [returnFromSubroutine, State.pullWord_eq, add_one_add_one]

/-- Settles O34: JSR is two pushes, of the bytes of the return address, and a jump. -/
theorem jsrResult : Obligations.JsrResult := by
  refine ⟨rfl, fun s target hwf => ⟨(s.pushWord (s.pc + 2)).setPc target, rfl, rfl, ?_⟩⟩
  obtain ⟨hhigh, hlow⟩ := State.peek_pushWord hwf (s.pc + 2)
  obtain ⟨hhigh', hlow'⟩ := returnAddress_bytes s.pc
  refine ⟨?sp, ?p, ?high, ?low, ?stack⟩
  case sp =>
    rw [State.setPc_sp, State.pushWord_sp]
    bv_omega
  case p => exact State.pushWord_p _ s
  case high => exact hhigh ▸ hhigh'
  case low => exact hlow ▸ hlow'
  case stack => exact onlyStackWritten_setPc (onlyStackWritten_pushWord (onlyStackWritten_refl s) hwf _) target

/-- Settles O35: RTS is two reads of the stack page, a move of SP and a jump. -/
theorem rtsResult : Obligations.RtsResult := by
  refine ⟨rfl, fun s => ⟨_, rfl, ?_⟩⟩
  rw [returnFromSubroutine_eq]
  refine ⟨rfl, BitVec.toNat_add s.sp 2, ?_⟩
  rw [State.setPc_pc, BitVec.toNat_add, operandWord_toNat]
  rfl

/-- Settles O36: the indirect jump reads the word at the pointer, which is two bus reads by definition. -/
theorem jmpResult : Obligations.JmpResult := by
  refine ⟨rfl, fun s w => ⟨rfl, ?_⟩⟩
  obtain ⟨low, u, high, v, next, hnext, hlow, hhigh, hstate, hword, -⟩ := wordsAreLittleEndian s w
  refine ⟨low, u, high, v, next, jumpIndirect w s, hnext, hlow, hhigh, rfl, ?_, ?_, hword⟩
  · rw [← hstate]
    rfl
  · exact hstate ▸ s.readWord_sameCore w

/-- Settles O39: the slots that RTS reads are those that JSR wrote, and nothing but SP and RAM decides where RTS goes. -/
theorem jsrThenRtsReturns : Obligations.JsrThenRtsReturns := by
  intro s target hwf
  obtain ⟨-, hjsr⟩ := jsrResult
  obtain ⟨-, hrts⟩ := rtsResult
  obtain ⟨t, hexec, -, htsp, -, hhigh, hlow, -⟩ := hjsr s target hwf
  refine ⟨t, hexec, fun u husp huram => ?_⟩
  obtain ⟨v, hv, -, hvsp, hvpc⟩ := hrts u
  have hslot1 : u.sp + 1 = s.sp - 1 := by bv_omega
  have hslot2 : u.sp + 2 = s.sp := by bv_omega
  have hpeek (b : Word) : u.peek b = t.peek b := congrArg (Memory.read · b.toNat) huram
  refine ⟨v, hv, ?_, ?_⟩
  · rw [hvpc, hslot1, hslot2, hpeek, hpeek, hhigh, hlow]
    omega
  · bv_omega

/-! ## BRK and RTI (45_stack_control.md R224, R225) -/

theorem setFlag_interrupt_brk (p : Byte) :
    Machine.setFlag .interrupt true (Machine.setFlag .brk true p) = p ||| 0x14 :=
  BitVec.or_assoc p 0x10 0x04

/-- The state of BRK between its pushes and its read of the vector. -/
def breakSaved (s : State) : State :=
  ((s.setP (s.p ||| 0x14)).pushWord (s.pc + 2)).push (s.p ||| 0x14)

/-- BRK is its pushes, then a jump through the vector. -/
theorem enterBreak_eq_of_breakSaved (s : State) :
    s.enterBreak =
      ((breakSaved s).readWord s.params.brkVector).2.setPc ((breakSaved s).readWord s.params.brkVector).1 := by
  have hmarked : (s.setFlag .brk true).setFlag .interrupt true = s.setP (s.p ||| 0x14) :=
    congrArg s.setP (setFlag_interrupt_brk s.p)
  simp only [State.enterBreak, hmarked]
  rfl

theorem breakSaved_sp (s : State) : (breakSaved s).sp = s.sp - 3 :=
  (congrArg (· - 1) (State.pushWord_sp _ _)).trans (sub_sub s.sp 2 1)

theorem onlyStackWritten_breakSaved {s : State} (hwf : s.ram.wf = true) :
    OnlyStackWritten [s.sp, s.sp - 1, s.sp - 2] s (breakSaved s) := by
  have hmarked : OnlyStackWritten [] s (s.setP (s.p ||| 0x14)) := ⟨rfl, fun b _ => State.setP_peek _ s b⟩
  have hwf' : ((s.setP (s.p ||| 0x14)).pushWord (s.pc + 2)).ram.wf = true :=
    State.pushWord_wf (s := s.setP (s.p ||| 0x14)) hwf (s.pc + 2)
  have hsp := (s.setP (s.p ||| 0x14)).pushWord_sp (s.pc + 2)
  exact hsp ▸ onlyStackWritten_push (onlyStackWritten_pushWord hmarked hwf _) hwf' _

theorem breakSaved_frame {s : State} (hwf : s.ram.wf = true) :
    breakSaved s = { s with p := s.p ||| 0x14, sp := s.sp - 3, ram := (breakSaved s).ram } := by
  obtain ⟨hframe, -⟩ := onlyStackWritten_breakSaved hwf
  have hp : (breakSaved s).p = s.p ||| 0x14 := by simp [breakSaved]
  have hpc : (breakSaved s).pc = s.pc := by simp [breakSaved]
  rwa [hp, breakSaved_sp, hpc] at hframe

/-- Settles O37: the state that BRK saves holds the three pushed bytes, and the vector is read from it. -/
theorem brkResult : Obligations.BrkResult := by
  refine ⟨rfl, fun s hwf => ⟨breakSaved s, s.enterBreak, rfl, breakSaved_frame hwf, ?_⟩⟩
  obtain ⟨hhigh, hlow, hstatus⟩ :=
    State.peek_pushWord_push (s := s.setP (s.p ||| 0x14)) hwf (s.pc + 2) (s.p ||| 0x14)
  obtain ⟨-, hpeek⟩ := onlyStackWritten_breakSaved hwf
  obtain ⟨hhigh', hlow'⟩ := returnAddress_bytes s.pc
  refine ⟨hhigh ▸ hhigh', hlow ▸ hlow', hstatus, fun b h0 h1 h2 => hpeek b ?_, enterBreak_eq_of_breakSaved s,
    State.readWord_sameCore _ _⟩
  simp only [List.forall_mem_cons]
  exact ⟨h0, h1, h2, List.forall_mem_nil _⟩

/-- Settles O38: RTI is three reads of the stack page, a move of SP and a jump. -/
theorem rtiResult : Obligations.RtiResult := by
  refine ⟨rfl, fun s => ⟨_, rfl, ?_⟩⟩
  rw [State.returnFromBreak_eq, add_one_add_one, add_two_add_one]
  exact ⟨rfl, rfl, BitVec.toNat_add s.sp 3, operandWord_toNat _ _⟩

/-! ## All eight stack instructions (45_stack_control.md R226) -/

theorem enterBreak_sp (s : State) : s.enterBreak.sp = s.sp - 3 := by
  rw [enterBreak_eq_of_breakSaved, State.setPc_sp, State.readWord_sp, breakSaved_sp]

theorem enterBreak_peek (s : State) (b : Word) : s.enterBreak.peek b = (breakSaved s).peek b := by
  rw [enterBreak_eq_of_breakSaved, State.setPc_peek, State.readWord_peek]

/-- Settles O53: the four pushing instructions write slots only, and slots are in the page; the four pulling ones write no
RAM. -/
theorem pushesStayInTheStackPage : Obligations.PushesStayInTheStackPage := by
  intro s target hwf
  simp only [List.mem_cons, Prod.mk.injEq, List.not_mem_nil, or_false]
  constructor
  · rintro _ _ (⟨rfl, rfl⟩ | ⟨rfl, rfl⟩ | ⟨rfl, rfl⟩ | ⟨rfl, rfl⟩)
    · obtain ⟨-, -, hresult⟩ := phaPlaResult
      obtain ⟨⟨t, hpha, -, hstack, -, hsp, -⟩, -⟩ := hresult s hwf
      exact ⟨t, hpha, hsp, fun _ => onlyStackWritten_peek_outside_page hstack⟩
    · obtain ⟨-, -, hresult⟩ := phpPlpResult
      obtain ⟨⟨t, hphp, -, hstack, -, hsp, -⟩, -⟩ := hresult s hwf
      exact ⟨t, hphp, hsp, fun _ => onlyStackWritten_peek_outside_page hstack⟩
    · obtain ⟨-, hresult⟩ := jsrResult
      obtain ⟨t, hjsr, -, hsp, -, -, -, hstack⟩ := hresult s target hwf
      exact ⟨t, hjsr, hsp, fun _ => onlyStackWritten_peek_outside_page hstack⟩
    · have hsp : s.enterBreak.sp.toNat = (s.sp.toNat + 253) % 256 := by
        rw [enterBreak_sp]
        bv_omega
      exact ⟨s.enterBreak, rfl, hsp, fun b hb => (enterBreak_peek s b).trans
        (onlyStackWritten_peek_outside_page (onlyStackWritten_breakSaved hwf) hb)⟩
  · rintro _ _ (⟨rfl, rfl⟩ | ⟨rfl, rfl⟩ | ⟨rfl, rfl⟩ | ⟨rfl, rfl⟩)
    · obtain ⟨-, -, hresult⟩ := phaPlaResult
      obtain ⟨-, ⟨t, hpla, -, hsp, -, -, hframe, -⟩⟩ := hresult s hwf
      exact ⟨t, hpla, hsp, by rw [hframe]⟩
    · obtain ⟨-, -, hresult⟩ := phpPlpResult
      obtain ⟨-, ⟨t, hplp, -, hsp, hframe, -⟩⟩ := hresult s hwf
      exact ⟨t, hplp, hsp, by rw [hframe]⟩
    · obtain ⟨-, hresult⟩ := rtsResult
      obtain ⟨t, hrts, hframe, hsp, -⟩ := hresult s
      exact ⟨t, hrts, hsp, by rw [hframe]⟩
    · obtain ⟨-, hresult⟩ := rtiResult
      obtain ⟨t, hrti, hframe, -, hsp, -⟩ := hresult s
      exact ⟨t, hrti, hsp, by rw [hframe]⟩

end Sys2Proof.Machine
end

section

namespace Sys2Proof.Machine

open Sys2Proof.Claims

/-! ## Status bytes that agree in the deciding flags (60_exceptions.md R244, 10_state.md R24) -/

/-- The two status bytes differ at most in Interrupt-Disable, Decimal, Break and bit 5. -/
def SameDecidingFlags (p q : Byte) : Prop :=
  ∀ f ∈ [Flag.carry, .zero, .overflow, .negative], getFlag q f = getFlag p f

namespace SameDecidingFlags

protected theorem refl (p : Byte) : SameDecidingFlags p p :=
  fun _ _ => rfl

variable {p q : Byte}

theorem carry (h : SameDecidingFlags p q) : getFlag q .carry = getFlag p .carry :=
  h .carry (by decide)

theorem setFlag (h : SameDecidingFlags p q) (f : Flag) (v : Bool) :
    SameDecidingFlags (Machine.setFlag f v p) (Machine.setFlag f v q) := by
  intro g hg
  simp only [getFlag_setFlag, h g hg]

theorem deriveNZ (h : SameDecidingFlags p q) (b : Byte) :
    SameDecidingFlags (Machine.deriveNZ b p) (Machine.deriveNZ b q) :=
  (h.setFlag _ _).setFlag _ _

theorem compareFlags (h : SameDecidingFlags p q) (reg m : Byte) :
    SameDecidingFlags (Machine.compareFlags reg m p) (Machine.compareFlags reg m q) :=
  (h.setFlag _ _).deriveNZ _

theorem bitTestFlags (h : SameDecidingFlags p q) (a m : Byte) :
    SameDecidingFlags (Machine.bitTestFlags a m p) (Machine.bitTestFlags a m q) :=
  ((h.setFlag _ _).setFlag _ _).setFlag _ _

end SameDecidingFlags

/-- A computation with its flags whose result, and whose flags that decide, are the same for two such status bytes. -/
def DecidedByFlags (op : Byte → Byte × Byte) : Prop :=
  ∀ ⦃p q⦄, SameDecidingFlags p q → (op q).1 = (op p).1 ∧ SameDecidingFlags (op p).2 (op q).2

/-- `ADC` reads Carry and no other flag, so Decimal is ignored (41_logic_arith.md R136). -/
theorem addWithCarry_decidedByFlags (a m : Byte) : DecidedByFlags (addWithCarry a m) := by
  intro p q h
  simp only [addWithCarry, h.carry]
  exact ⟨trivial, ((h.setFlag _ _).setFlag _ _).deriveNZ _⟩

/-- A shift or rotate whose result byte the deciding flags determine. -/
theorem shifted_decidedByFlags {result : Byte → Byte} {out : Bool}
    (hresult : ∀ ⦃p q⦄, SameDecidingFlags p q → result q = result p) : DecidedByFlags fun p => shifted (result p) out p := by
  intro p q h
  simp only [shifted, hresult h]
  exact ⟨trivial, (h.setFlag _ _).deriveNZ _⟩

/-- A computation that reads no flag and derives Negative and Zero from its result. -/
theorem deriveNZ_decidedByFlags (r : Byte) : DecidedByFlags fun p => (r, deriveNZ r p) :=
  fun _ _ h => ⟨rfl, h.deriveNZ r⟩

/-! ## The bus and the stack do not read P (20_memory.md R51 to R54, 45_stack_control.md R215, R216) -/

section
variable (q : Byte) (s : State)

theorem State.ioRead_setP (addr : Word) :
    (s.setP q).ioRead addr = ((s.ioRead addr).1, (s.ioRead addr).2.setP q) := by
  have hanswer : (s.setP q).ioAnswer = (s.ioAnswer.1, s.ioAnswer.2.setP q) := by
    rw [State.ioAnswer, State.ioAnswer, State.setP_ioIn]
    cases s.ioIn <;> rfl
  rw [State.ioRead, hanswer]
  rfl

theorem State.busRead_setP (addr : Word) :
    (s.setP q).busRead addr = ((s.busRead addr).1, (s.busRead addr).2.setP q) := by
  rw [State.busRead, State.busRead, State.setP_bank]
  cases s.bank addr with
  | io => exact s.ioRead_setP q addr
  | ram | basic | chargen | kernal => rfl

theorem State.busWrite_setP (addr : Word) (v : Byte) :
    (s.setP q).busWrite addr v = (s.busWrite addr v).setP q := by
  rw [State.busWrite, State.busWrite, State.setP_bank]
  cases s.bank addr <;> rfl

theorem State.readWord_setP (addr : Word) :
    (s.setP q).readWord addr = ((s.readWord addr).1, (s.readWord addr).2.setP q) := by
  simp only [State.readWord, State.busRead_setP]

theorem State.resolve_fst_setP (form : MemForm) : ((s.setP q).resolve form).1 = (s.resolve form).1 := by
  cases form with
  | indx ptr => simp only [State.resolve, State.readWord_setP, State.setP_x]
  | indy ptr => simp only [State.resolve, State.readWord_setP, State.setP_y]
  | zp _ | zpx _ | zpy _ | abs _ | absx _ | absy _ => rfl

theorem State.pull_setP : (s.setP q).pull = (s.pull.1, s.pull.2.setP q) := by
  rw [State.pull_eq, State.pull_eq]
  rfl

theorem State.push_setP (v : Byte) : (s.setP q).push v = (s.push v).setP q := by
  rw [State.push_eq, State.push_eq]
  rfl

theorem State.pushWord_setP (w : Word) : (s.setP q).pushWord w = (s.pushWord w).setP q := by
  rw [State.pushWord_eq, State.pushWord_eq]
  rfl

theorem returnFromSubroutine_setP : returnFromSubroutine (s.setP q) = (returnFromSubroutine s).setP q := by
  rw [returnFromSubroutine_eq, returnFromSubroutine_eq]
  rfl

/-- RTI replaces P (45_stack_control.md R225). -/
theorem State.returnFromBreak_setP : (s.setP q).returnFromBreak = s.returnFromBreak := by
  rw [State.returnFromBreak_eq, State.returnFromBreak_eq]
  rfl

end

/-! ## Operations that the inert flags do not decide -/

/-- Started with another status byte that agrees in the deciding flags, the operation ends in the same state but for such a
status byte. -/
def IgnoresInertFlags (g : State → State) : Prop :=
  ∀ s q, SameDecidingFlags s.p q → ∃ q', g (s.setP q) = (g s).setP q' ∧ SameDecidingFlags (g s).p q'

namespace IgnoresInertFlags

/-- An operation that neither reads nor writes P. -/
theorem of_comm_setP {g : State → State} (h : ∀ s q, g (s.setP q) = (g s).setP q) : IgnoresInertFlags g := by
  intro s q hq
  have hself : g s = (g s).setP s.p := h s s.p
  have hp : (g s).p = s.p := by rw [hself, State.setP_p]
  exact ⟨q, h s q, hp ▸ hq⟩

/-- An operation that replaces P by a byte from elsewhere. -/
theorem of_setP_eq {g : State → State} (h : ∀ s q, g (s.setP q) = g s) : IgnoresInertFlags g :=
  fun s q _ => ⟨(g s).p, h s q, .refl _⟩

/-- A new status byte from the old one and registers. -/
theorem setP {status : State → Byte → Byte} (hreads : ∀ s q, status (s.setP q) = status s)
    (hstatus : ∀ s ⦃p q⦄, SameDecidingFlags p q → SameDecidingFlags (status s p) (status s q)) :
    IgnoresInertFlags fun s => s.setP (status s s.p) :=
  fun s q hq => ⟨status s q, congrArg (fun f => s.setP (f q)) (hreads s q), hstatus s hq⟩

section
variable {g : State → State} (h : IgnoresInertFlags g)
include h

theorem advance (n : Nat) : IgnoresInertFlags fun s => (g s).advance n := by
  intro s q hq
  obtain ⟨q', hg, hq'⟩ := h s q hq
  exact ⟨q', congrArg (State.advance n) hg, hq'⟩

theorem setNZ {result : State → Byte} (hresult : ∀ s q, result (s.setP q) = result s) :
    IgnoresInertFlags fun s => (g s).setNZ (result s) := by
  intro s q hq
  obtain ⟨q', hg, hq'⟩ := h s q hq
  refine ⟨deriveNZ (result s) q', ?_, hq'.deriveNZ (result s)⟩
  simp only [hg, hresult]
  rfl

end

theorem compare {reg : State → Byte} (hreg : ∀ s q, reg (s.setP q) = reg s) (m : Byte) :
    IgnoresInertFlags fun s => s.setP (compareFlags (reg s) m s.p) :=
  .setP (status := fun s => compareFlags (reg s) m) (fun s q => by rw [hreg]) fun s _ _ h => h.compareFlags (reg s) m

/-- A computation on A with its flags, in the accumulator. -/
theorem accumulate {op : Byte → Byte → Byte × Byte} (hop : ∀ a, DecidedByFlags (op a)) :
    IgnoresInertFlags fun s => (s.setA (op s.a s.p).1).setP (op s.a s.p).2 := by
  intro s q hq
  obtain ⟨hresult, hflags⟩ := hop s.a hq
  exact ⟨(op s.a q).2, congrArg (fun a => (s.setA a).setP (op s.a q).2) hresult, hflags⟩

/-! ## The shapes of the instruction rules -/

theorem reads {body : Byte → State → State} (hbody : ∀ m, IgnoresInertFlags (body m)) (o : Operand) :
    IgnoresInertFlags ((Shape.reads body).effect o) := by
  cases o with
  | imm b => exact (hbody b).advance _
  | mem form =>
    intro s q hq
    have hload : (s.setP q).loadForm form = ((s.loadForm form).1, (s.loadForm form).2.setP q) := by
      simp only [State.loadForm_eq, State.resolve_fst_setP, State.busRead_setP]
    simp only [Shape.effect, fromMemory, hload]
    exact (hbody _).advance _ _ q (s.loadForm_p form ▸ hq)
  | imp | acc | rel _ | ind _ => exact of_comm_setP fun _ _ => rfl

theorem modifies {op : Byte → Byte → Byte × Byte} (hop : ∀ v, DecidedByFlags (op v)) (o : Operand) :
    IgnoresInertFlags ((Shape.modifies op).effect o) := by
  cases o with
  | acc => exact (accumulate hop).advance _
  | mem form =>
    intro s q hq
    obtain ⟨hresult, hflags⟩ := hop (s.busRead (s.resolve form).1).1 hq
    refine ⟨(op (s.busRead (s.resolve form).1).1 q).2, ?_, ?_⟩
    · simp only [Shape.effect, modifyMemory_eq, State.resolve_fst_setP, State.busRead_setP, State.busWrite_setP,
        State.setP_p, hresult]
      rfl
    · rwa [Shape.effect, modifyMemory_eq]
  | imp | imm _ | rel _ | ind _ => exact of_comm_setP fun _ _ => rfl

theorem stores {value : State → Byte} (hvalue : ∀ s q, value (s.setP q) = value s) (o : Operand) :
    IgnoresInertFlags ((Shape.stores value).effect o) := by
  refine of_comm_setP fun s q => ?_
  cases o with
  | mem form =>
    simp only [Shape.effect, storeTo_eq, hvalue, State.resolve_fst_setP, State.busWrite_setP]
    rfl
  | imp | acc | imm _ | rel _ | ind _ => rfl

theorem implied {body : State → State} (hbody : IgnoresInertFlags body) (o : Operand) :
    IgnoresInertFlags ((Shape.implied body).effect o) :=
  hbody.advance _

theorem branch {f : Flag} (hf : f ∈ [Flag.carry, .zero, .overflow, .negative]) (v : Bool) (o : Operand) :
    IgnoresInertFlags ((Shape.branch f v).effect o) := by
  cases o with
  | rel off =>
    intro s q hq
    have hflag : (s.setP q).flag f = s.flag f := hq f hf
    refine ⟨q, ?_, hq⟩
    simp only [Shape.effect, hflag]
    rfl
  | imp | acc | imm _ | mem _ | ind _ => exact of_comm_setP fun _ _ => rfl

theorem call (o : Operand) : IgnoresInertFlags (callEffect o) := by
  refine of_comm_setP fun s q => ?_
  cases o with
  | mem form =>
    cases form with
    | abs w => exact congrArg (State.setPc w) (s.pushWord_setP q _)
    | _ => rfl
  | imp | acc | imm _ | rel _ | ind _ => rfl

theorem jump (o : Operand) : IgnoresInertFlags (jumpEffect o) := by
  refine of_comm_setP fun s q => ?_
  cases o with
  | mem form => cases form <;> rfl
  | ind ptr => exact congrArg (fun target => target.2.setPc target.1) (s.readWord_setP q ptr)
  | imp | acc | imm _ | rel _ => rfl

end IgnoresInertFlags

/-- PHP and BRK aside, no mnemonic's rule lets an inert flag decide anything but the inert flags themselves. -/
theorem effect_ignoresInertFlags {m : Mnemonic} (hphp : m ≠ .php) (hbrk : m ≠ .brk) (o : Operand) :
    IgnoresInertFlags ((shapeOf m).effect o) := by
  cases m
  case ora | and | eor | lda | ldx | ldy =>
    exact .reads (fun _ => .setNZ (.of_comm_setP fun _ _ => rfl) fun _ _ => rfl) o
  case adc => exact .reads (fun m => .accumulate (op := (addWithCarry · m)) (addWithCarry_decidedByFlags · m)) o
  case sbc =>
    exact .reads (fun m => .accumulate (op := (subtractWithCarry · m)) (addWithCarry_decidedByFlags · (m ^^^ 0xFF))) o
  case cmp | cpx | cpy => exact .reads (fun m => .compare (fun _ _ => rfl) m) o
  case bit =>
    exact .reads (fun m => .setP (status := (bitTestFlags ·.a m)) (fun _ _ => rfl) fun s _ _ h => h.bitTestFlags s.a m) o
  case asl | lsr => exact .modifies (fun _ => shifted_decidedByFlags fun _ _ _ => rfl) o
  case rol | ror => exact .modifies (fun _ => shifted_decidedByFlags fun _ _ h => by rw [h.carry]) o
  case inc | dec => exact .modifies (fun _ => deriveNZ_decidedByFlags _) o
  case sta | stx | sty => exact .stores (fun _ _ => rfl) o
  case inx | iny | dex | dey | tax | txa | tay | tya =>
    exact .implied (.setNZ (.of_comm_setP fun _ _ => rfl) fun _ _ => rfl) o
  case tsx | txs | nop => exact .implied (.of_comm_setP fun _ _ => rfl) o
  case clc | sec | cli | sei | cld | sed | clv =>
    exact .implied (.setP (fun _ _ => rfl) fun _ _ _ h => h.setFlag _ _) o
  case pha => exact .implied (.of_comm_setP fun s q => s.push_setP q s.a) o
  case pla =>
    refine .implied (.setNZ (.of_comm_setP fun s q => ?_) fun s q => ?_) o
    · rw [State.pull_setP]; rfl
    · rw [State.pull_setP]
  case plp => exact .implied (.of_setP_eq fun s q => by rw [plpBody, State.pull_setP]; rfl) o
  case bpl | bmi | bvc | bvs | bcc | bcs | bne | beq => exact .branch (by decide) _ o
  case jsr => exact .call o
  case rts => exact .of_comm_setP fun s q => returnFromSubroutine_setP q s
  case jmp => exact .jump o
  case rti => exact .of_setP_eq fun s q => s.returnFromBreak_setP q
  case php => exact absurd rfl hphp
  case brk => exact absurd rfl hbrk

/-- Settles O54: `exec` is the effect of the mnemonic's shape, which ignores the inert flags. -/
theorem inertFlagsDecideNothing : Obligations.InertFlagsDecideNothing := by
  intro i s t q hphp hbrk hq hexec
  rw [exec_eq, Host.Outcome.next.injEq] at hexec
  subst hexec
  obtain ⟨q', heq, hq'⟩ := effect_ignoresInertFlags hphp hbrk i.operand s q hq
  exact ⟨_, (exec_eq i (s.setP q)).trans (congrArg Host.Outcome.next heq), rfl, hq'⟩

end Sys2Proof.Machine
end

section

namespace Sys2Proof.Machine

open Sys2Proof.Claims

/-! ## The step of a running machine (60_exceptions.md R240, R241) -/

/-- An unpopulated opcode ends the fetch after its one bus read (60_exceptions.md R240). -/
theorem State.fetch_of_lookup_none {s : State} (h : lookup s.params.optable (s.busRead s.pc).1 = none) :
    s.fetch = .illegal (s.busRead s.pc).1 (s.busRead s.pc).2 := by
  simp only [State.fetch, instrLength, h, Option.map_none]

theorem step_of_fetch_illegal {s u : State} {opcode : Byte} (hrun : s.run = .running)
    (hfetch : s.fetch = .illegal opcode u) : step s = .next (u.raiseIllegal opcode) := by
  simp only [step, hrun, hfetch]

theorem step_of_fetch_bytes {s u : State} {code rest : List Byte} {i : Instr} (hrun : s.run = .running)
    (hfetch : s.fetch = .bytes code u) (hdecode : decodeWith s.params.optable code = .ok (i, rest)) :
    step s = exec i u := by
  simp only [step, hrun, hfetch, hdecode]

/-- An opcode is unpopulated when it is no row's opcode (30_encoding.md R97). -/
theorem lookup_eq_none_iff {table : List Row} {b : Byte} :
    lookup table b = none ↔ b.toNat ∉ table.map (·.opcode.toNat) := by
  simp [lookup, BitVec.toNat_inj]

/-- The list of 30_encoding.md R97, as numbers, against the opcodes of the default table. -/
theorem illegalBytes_toNat :
    illegalBytes.map BitVec.toNat = (List.range 256).filter (· ∉ optable.map (·.opcode.toNat)) := by
  decide +kernel

theorem lookup_optable_eq_none_iff (b : Byte) : lookup optable b = none ↔ b ∈ illegalBytes := by
  have hmem : b ∈ illegalBytes ↔ b.toNat ∈ illegalBytes.map BitVec.toNat :=
    (List.mem_map_of_injective fun _ _ => BitVec.eq_of_toNat_eq).symm
  rw [lookup_eq_none_iff, hmem, illegalBytes_toNat, List.mem_filter, decide_eq_true_iff]
  exact (and_iff_right (List.mem_range.2 b.isLt)).symm

/-- Settles O44: the step is the fetch's one bus read, then the halt, at the PC that the read left. -/
theorem illegalOpcodeHaltsAndChangesNothingElse : Obligations.IllegalOpcodeHaltsAndChangesNothingElse := by
  refine ⟨fun s hrun hlookup => ?_, lookup_optable_eq_none_iff⟩
  refine ⟨_, step_of_fetch_illegal hrun (State.fetch_of_lookup_none hlookup), ?_, s.busRead_sameCore s.pc⟩
  rw [State.raiseIllegal, State.busRead_pc]
  rfl

/-- As many bytes as a mode has operand bytes make an operand of it (30_encoding.md R91, R92). -/
theorem takeOperand_of_length {mode : Mode} {bytes : List Byte} (h : bytes.length = mode.length - 1) :
    ∃ o, mode.takeOperand bytes = some (o, []) := by
  cases mode
  case imp | acc =>
    obtain rfl := List.length_eq_zero_iff.1 h
    exact ⟨_, rfl⟩
  case imm | zp | zpx | zpy | indx | indy | rel =>
    obtain ⟨b, rfl⟩ := List.length_eq_one_iff.1 h
    exact ⟨_, rfl⟩
  case abs | absx | absy | ind =>
    obtain ⟨b, c, rfl⟩ := List.length_eq_two.1 h
    exact ⟨_, rfl⟩

/-- An opcode that a legal table populates, with the operand bytes of its mode, is an instruction (30_encoding.md R97, R99). -/
theorem decodeWith_of_tableWellFormed {table : List Row} (htable : tableWellFormed table = true) {opcode : Byte} {row : Row}
    (hlookup : lookup table opcode = some row) {operand : List Byte} (hlength : operand.length = row.mode.length - 1) :
    ∃ i, decodeWith table (opcode :: operand) = .ok (i, []) := by
  obtain ⟨hbound, -⟩ := Bool.and_eq_true_iff.1 htable
  obtain ⟨o, htake⟩ := takeOperand_of_length hlength
  obtain ⟨hmode, -⟩ := takeOperand_some htake
  have hparts : (Instr.ofParts row.mnemonic o).isSome = true := by
    rw [ofParts_isSome, hmode]
    exact List.all_eq_true.1 hbound row (lookup_mem hlookup)
  obtain ⟨i, hi⟩ := Option.isSome_iff_exists.1 hparts
  exact ⟨i, by simp only [decodeWith, hlookup, htake, hi]⟩

theorem Params.tableWellFormed_of_legal {q : Params} (h : q.legal = true) : tableWellFormed q.optable = true := by
  simp only [Params.legal, Bool.and_eq_true] at h
  obtain ⟨⟨⟨⟨-, htable⟩, -⟩, -⟩, -⟩ := h
  exact htable

/-- Settles O47: the fetch finds an unpopulated opcode, and the machine halts, or the bytes of an instruction, which completes
and leaves RUN as it is. -/
theorem runningLegalMachineAlwaysSteps : Obligations.RunningLegalMachineAlwaysSteps := by
  intro s hrun hlegal
  cases hfetch : s.fetch with
  | illegal opcode u =>
    obtain ⟨hread, hlookup⟩ := State.fetch_illegal hfetch
    refine ⟨_, step_of_fetch_illegal hrun hfetch, ?_⟩
    simp [State.raiseIllegal, hread, hlookup]
  | bytes code u =>
    obtain ⟨opcode, operand, row, rfl, hlookup, hlength, hread, hcore⟩ := State.fetch_bytes hfetch
    obtain ⟨i, hdecode⟩ := decodeWith_of_tableWellFormed (Params.tableWellFormed_of_legal hlegal) hlookup hlength
    obtain ⟨t, hexec, htrun, -⟩ := everyInstructionCompletes i u
    have hurun : u.run = s.run := by rw [hcore]
    refine ⟨t, (step_of_fetch_bytes hrun hfetch hdecode).trans hexec, ?_⟩
    simp [htrun, hurun, hrun, hread, hlookup]

/-! ## A halted machine (60_exceptions.md R253) -/

/-- A program that is not refused is poked from its load address (70_reset_and_hazards.md R276). -/
theorem State.loadProgram_ok {s t : State} {bytes : List Byte} (h : s.loadProgram bytes = .ok t) :
    ∃ base payload, t = s.pokeBytes base payload := by
  match bytes, h with
  | low :: high :: payload, h =>
    simp only [State.loadProgram] at h
    split at h
    · cases h
    · cases h
      exact ⟨_, payload, rfl⟩

/-- Settles O45: `step` and `run` look at RUN first, the frames of the host's writes leave RUN out, and `reset()` sets it. -/
theorem haltIsStickyUntilReset : Obligations.HaltIsStickyUntilReset := by
  intro s pc opcode hhalted
  refine ⟨?step, fun start n escape => ?run, fun _ _ => hhalted, fun r v => ?setReg, fun bytes t hload => ?load, rfl⟩
  case step => simp only [step, hhalted]
  case run => simp only [State.hostRun, hhalted]
  case setReg => rw [State.setReg_frame, hhalted]
  case load =>
    obtain ⟨base, payload, rfl⟩ := State.loadProgram_ok hload
    rw [State.pokeBytes_frame, hhalted]

end Sys2Proof.Machine
end

section

namespace Sys2Proof.Machine

open Sys2Proof.Claims

/-! ## Another environment (20_memory.md R58, 70_reset_and_hazards.md R284) -/

/-- The same core before an environment with other answers. -/
def State.withAnswers (answers : List Byte) (n : Nat) (s : State) : State :=
  { s with ioIn := answers, ioDraws := n }

/-- The answers still queued, less the ones drawn: every collaborator read lowers it by one, and nothing raises it. -/
def State.answersLeft (s : State) : Int :=
  s.ioIn.length - s.ioDraws

theorem State.answersLeft_ioAnswer (s : State) : s.ioAnswer.2.answersLeft = s.answersLeft - 1 := by
  cases hqueue : s.ioIn with
  | nil =>
    rw [State.ioAnswer_of_nil hqueue]
    simp [State.answersLeft]
    omega
  | cons c rest =>
    rw [State.ioAnswer_of_cons hqueue]
    simp [State.answersLeft, hqueue]
    omega

/-- A read in the selected I/O window uses an answer. -/
theorem State.answersLeft_busRead_of_io {s : State} {addr : Word} (h : s.bank addr = .io) :
    (s.busRead addr).2.answersLeft = s.answersLeft - 1 := by
  rw [State.busRead_of_io h]
  exact s.answersLeft_ioAnswer

section
variable (answers : List Byte) (n : Nat) (s : State)

/-- A read anywhere else does not ask the environment. -/
theorem State.busRead_withAnswers {addr : Word} (h : s.bank addr ≠ .io) :
    (s.withAnswers answers n).busRead addr = ((s.busRead addr).1, s.withAnswers answers n) := by
  have hbank : (s.withAnswers answers n).bank addr = s.bank addr := rfl
  rw [State.busRead, State.busRead, hbank]
  cases hs : s.bank addr with
  | io => exact absurd hs h
  | ram | basic | chargen | kernal => rfl

theorem State.busWrite_withAnswers (addr : Word) (v : Byte) :
    (s.withAnswers answers n).busWrite addr v = (s.busWrite addr v).withAnswers answers n := by
  have hbank : (s.withAnswers answers n).bank addr = s.bank addr := rfl
  rw [State.busWrite, State.busWrite, hbank]
  cases s.bank addr <;> rfl

/-- The pointers of the indirect modes are in page zero and 0x0100, which are always RAM (20_memory.md R64). -/
theorem State.resolve_fst_withAnswers (form : MemForm) :
    ((s.withAnswers answers n).resolve form).1 = (s.resolve form).1 := by
  cases form with
  | indx ptr => simp only [State.resolve, State.readWord_zeroPage]; rfl
  | indy ptr => simp only [State.resolve, State.readWord_zeroPage]; rfl
  | zp _ | zpx _ | zpy _ | abs _ | absx _ | absy _ => rfl

theorem State.push_withAnswers (v : Byte) :
    (s.withAnswers answers n).push v = (s.push v).withAnswers answers n := by
  rw [State.push_eq, State.push_eq]
  rfl

theorem State.pushWord_withAnswers (w : Word) :
    (s.withAnswers answers n).pushWord w = (s.pushWord w).withAnswers answers n := by
  rw [State.pushWord_eq, State.pushWord_eq]
  rfl

theorem State.pull_withAnswers :
    (s.withAnswers answers n).pull = (s.pull.1, s.pull.2.withAnswers answers n) := by
  rw [State.pull_eq, State.pull_eq]
  rfl

end

/-! ## Operations that no unused answer decides -/

/-- What a machine does from a state. -/
abbrev Action :=
  State → Host.Outcome State Fault Refusal

/-- The action takes no answer back, and where it used none, it does the same before any other environment and leaves that
environment as it is. -/
def IgnoresUnusedAnswers (g : Action) : Prop :=
  ∀ s t, g s = .next t → t.answersLeft ≤ s.answersLeft ∧
    (t.answersLeft = s.answersLeft → ∀ answers n, g (s.withAnswers answers n) = .next (t.withAnswers answers n))

/-- The operation reads nothing of the environment and leaves its answers alone. -/
def KeepsAnswers (f : State → State) : Prop :=
  ∀ s answers n, f (s.withAnswers answers n) = (f s).withAnswers answers n

/-- The environment's answers have no part in the value. -/
def DecidedByCore {ι : Type} (f : State → ι) : Prop :=
  ∀ s answers n, f (s.withAnswers answers n) = f s

theorem State.resolve_decidedByCore (form : MemForm) : DecidedByCore fun s => (s.resolve form).1 :=
  fun s answers n => s.resolve_fst_withAnswers answers n form

namespace IgnoresUnusedAnswers

/-- An action after an operation that keeps the answers. -/
theorem after {f : State → State} (hf : KeepsAnswers f) {g : Action} (hg : IgnoresUnusedAnswers g) :
    IgnoresUnusedAnswers fun s => g (f s) := by
  intro s t ht
  have hself : f s = (f s).withAnswers s.ioIn s.ioDraws := hf s s.ioIn s.ioDraws
  have hleft : (f s).answersLeft = s.answersLeft := by rw [hself]; rfl
  simp only [hf s]
  exact hleft ▸ hg (f s) t ht

/-- Such an operation alone. -/
theorem of_keepsAnswers {f : State → State} (hf : KeepsAnswers f) : IgnoresUnusedAnswers fun s => .next (f s) :=
  after hf (g := .next) (by rintro s _ ⟨⟩; exact ⟨le_refl _, fun _ _ _ => rfl⟩)

/-- An action that stops. -/
theorem of_ne_next {g : Action} (h : ∀ s t, g s ≠ .next t) : IgnoresUnusedAnswers g :=
  fun s t ht => absurd ht (h s t)

/-- An action chosen by a value the environment has no part in. -/
theorem choose {ι : Type} {f : State → ι} (hf : DecidedByCore f) {g : ι → Action} (hg : ∀ i, IgnoresUnusedAnswers (g i)) :
    IgnoresUnusedAnswers fun s => g (f s) s := by
  intro s t ht
  simp only [hf s]
  exact hg (f s) s t ht

/-- An action on the byte of a bus read: either the read used an answer, which no later one gives back, or it was not in the
I/O window and changed nothing. -/
theorem busRead (addr : Word) {k : Byte → Action} (hk : ∀ b, IgnoresUnusedAnswers (k b)) :
    IgnoresUnusedAnswers fun s => k (s.busRead addr).1 (s.busRead addr).2 := by
  intro s t ht
  obtain ⟨hle, hsame⟩ := hk _ _ t ht
  by_cases hio : s.bank addr = .io
  · rw [State.answersLeft_busRead_of_io hio] at hle
    exact ⟨by omega, fun heq => by omega⟩
  · rw [State.busRead_state hio] at hle hsame
    refine ⟨hle, fun heq answers n => ?_⟩
    simp only [State.busRead_withAnswers answers n s hio]
    exact hsame heq answers n

theorem readWord (addr : Word) {k : Word → Action} (hk : ∀ w, IgnoresUnusedAnswers (k w)) :
    IgnoresUnusedAnswers fun s => k (s.readWord addr).1 (s.readWord addr).2 :=
  .busRead addr (k := fun low u => k (operandWord low (u.busRead (addr + 1)).1) (u.busRead (addr + 1)).2) fun low =>
    .busRead (addr + 1) (k := fun high => k (operandWord low high)) fun _ => hk _

theorem readBytes (n : Nat) (addr : Word) {k : List Byte → Action} (hk : ∀ bytes, IgnoresUnusedAnswers (k bytes)) :
    IgnoresUnusedAnswers fun s => k (State.readBytes n addr s).1 (State.readBytes n addr s).2 := by
  induction n generalizing addr k with
  | zero => exact hk []
  | succ n ih => exact .busRead addr fun b => ih (addr + 1) (k := fun bytes => k (b :: bytes)) fun _ => hk _

/-- A jump to the word read at an address. -/
theorem jumpThrough (addr : Word) : IgnoresUnusedAnswers fun s => .next ((s.readWord addr).2.setPc (s.readWord addr).1) :=
  .readWord addr (k := fun w u => .next (u.setPc w)) fun _ => of_keepsAnswers fun _ _ _ => rfl

/-! ## The shapes of the instruction rules -/

theorem reads {body : Byte → State → State} (hbody : ∀ m, KeepsAnswers (body m)) (o : Operand) :
    IgnoresUnusedAnswers fun s => .next ((Shape.reads body).effect o s) := by
  have hadvance (m len) : IgnoresUnusedAnswers fun s => .next ((body m s).advance len) :=
    of_keepsAnswers fun s answers n => congrArg (State.advance len) (hbody m s answers n)
  cases o with
  | imm b => exact hadvance b _
  | mem form =>
    simp only [Shape.effect, fromMemory, State.loadForm_eq]
    exact choose (State.resolve_decidedByCore form) fun addr => .busRead addr fun m => hadvance m _
  | imp | acc | rel _ | ind _ => exact of_keepsAnswers fun _ _ _ => rfl

theorem modifies (op : Byte → Byte → Byte × Byte) (o : Operand) :
    IgnoresUnusedAnswers fun s => .next ((Shape.modifies op).effect o s) := by
  cases o with
  | mem form =>
    simp only [Shape.effect, modifyMemory, State.resolve_state]
    refine choose (State.resolve_decidedByCore form)
      (g := fun addr s => .next ((modify op (.bus addr) s).advance (formLength form))) fun addr => ?_
    refine .busRead addr (k := fun v u => .next (((u.busWrite addr (op v u.p).1).setP (op v u.p).2).advance _)) fun v => ?_
    exact of_keepsAnswers fun s answers n =>
      congrArg (fun u => (u.setP (op v s.p).2).advance (formLength form)) (s.busWrite_withAnswers answers n addr _)
  | imp | acc | imm _ | rel _ | ind _ => exact of_keepsAnswers fun _ _ _ => rfl

theorem stores {value : State → Byte} (hvalue : DecidedByCore value) (o : Operand) :
    IgnoresUnusedAnswers fun s => .next ((Shape.stores value).effect o s) := by
  refine of_keepsAnswers fun s answers n => ?_
  cases o with
  | mem form =>
    simp only [Shape.effect, storeTo_eq, hvalue s, State.resolve_fst_withAnswers, State.busWrite_withAnswers]
    rfl
  | imp | acc | imm _ | rel _ | ind _ => rfl

theorem implied {body : State → State} (hbody : KeepsAnswers body) (o : Operand) :
    IgnoresUnusedAnswers fun s => .next ((Shape.implied body).effect o s) :=
  of_keepsAnswers fun s answers n => congrArg (State.advance 1) (hbody s answers n)

theorem branch (f : Flag) (v : Bool) (o : Operand) :
    IgnoresUnusedAnswers fun s => .next ((Shape.branch f v).effect o s) :=
  of_keepsAnswers fun _ _ _ => by cases o <;> rfl

theorem call (o : Operand) : IgnoresUnusedAnswers fun s => .next (callEffect o s) := by
  refine of_keepsAnswers fun s answers n => ?_
  cases o with
  | mem form =>
    cases form with
    | abs w => exact congrArg (State.setPc w) (s.pushWord_withAnswers answers n _)
    | _ => rfl
  | imp | acc | imm _ | rel _ | ind _ => rfl

theorem jump (o : Operand) : IgnoresUnusedAnswers fun s => .next (jumpEffect o s) := by
  cases o with
  | ind ptr => exact jumpThrough ptr
  | mem form => exact of_keepsAnswers fun _ _ _ => by cases form <;> rfl
  | imp | acc | imm _ | rel _ => exact of_keepsAnswers fun _ _ _ => rfl

theorem breakEntry : IgnoresUnusedAnswers fun s => .next s.enterBreak := by
  simp only [enterBreak_eq_of_breakSaved]
  refine choose (f := fun s => s.params.brkVector) (fun _ _ _ => rfl)
    (g := fun addr s => .next (((breakSaved s).readWord addr).2.setPc ((breakSaved s).readWord addr).1)) fun addr => ?_
  refine after (f := breakSaved) (fun s answers n => ?_) (jumpThrough addr)
  rw [breakSaved, breakSaved, ← State.push_withAnswers, ← State.pushWord_withAnswers]
  rfl

end IgnoresUnusedAnswers

theorem effect_ignoresUnusedAnswers (m : Mnemonic) (o : Operand) :
    IgnoresUnusedAnswers fun s => .next ((shapeOf m).effect o s) := by
  cases m
  case ora | and | eor | adc | sbc | cmp | cpx | cpy | bit | lda | ldx | ldy => exact .reads (fun _ _ _ _ => rfl) o
  case asl | lsr | rol | ror | inc | dec => exact .modifies _ o
  case sta | stx | sty => exact .stores (fun _ _ _ => rfl) o
  case inx | iny | dex | dey | tax | txa | tay | tya | tsx | txs => exact .implied (fun _ _ _ => rfl) o
  case clc | sec | cli | sei | cld | sed | clv | nop => exact .implied (fun _ _ _ => rfl) o
  case pha => exact .implied (fun s answers n => s.push_withAnswers answers n s.a) o
  case php => exact .implied (fun s answers n => s.push_withAnswers answers n s.p) o
  case pla | plp =>
    refine .implied (fun s answers n => ?_) o
    simp only [plaBody, plpBody, State.pull_withAnswers]
    rfl
  case bpl | bmi | bvc | bvs | bcc | bcs | bne | beq => exact .branch _ _ o
  case jsr => exact .call o
  case jmp => exact .jump o
  case brk => exact .breakEntry
  case rts => exact .of_keepsAnswers (f := returnFromSubroutine) fun _ _ _ => by simp only [returnFromSubroutine_eq]; rfl
  case rti => exact .of_keepsAnswers (f := State.returnFromBreak) fun _ _ _ => by simp only [State.returnFromBreak_eq]; rfl

theorem exec_ignoresUnusedAnswers (i : Instr) : IgnoresUnusedAnswers (exec i) := by
  rw [funext (exec_eq i)]
  exact effect_ignoresUnusedAnswers i.mnemonic i.operand

/-! ## The step in the order of its bus reads (20_memory.md R63) -/

/-- What a step does once the bytes of an instruction are read. -/
def afterOperand (table : List Row) (opcode : Byte) (operand : List Byte) : Action := fun s =>
  match decodeWith table (opcode :: operand) with
  | .ok (i, _) => exec i s
  | .error _ => .refused (.modeNotBound opcode)

/-- What a step does once the opcode at `pc` is read. -/
def afterOpcode (table : List Row) (pc : Word) (opcode : Byte) : Action := fun s =>
  match instrLength table opcode with
  | none => .next (s.raiseIllegal opcode)
  | some n =>
    let operand := State.readBytes (n - 1) (pc + 1) s
    afterOperand table opcode operand.1 operand.2

theorem step_eq_afterOpcode {s : State} (hrun : s.run = .running) :
    step s = afterOpcode s.params.optable s.pc (s.busRead s.pc).1 (s.busRead s.pc).2 := by
  simp only [step, hrun, State.fetch, afterOpcode, afterOperand]
  cases instrLength s.params.optable (s.busRead s.pc).1 <;> rfl

theorem afterOperand_ignoresUnusedAnswers (table : List Row) (opcode : Byte) (operand : List Byte) :
    IgnoresUnusedAnswers (afterOperand table opcode operand) := by
  unfold afterOperand
  split
  · exact exec_ignoresUnusedAnswers _
  · exact .of_ne_next fun _ _ => nofun

theorem afterOpcode_ignoresUnusedAnswers (table : List Row) (pc : Word) (opcode : Byte) :
    IgnoresUnusedAnswers (afterOpcode table pc opcode) := by
  unfold afterOpcode
  split
  · exact .of_keepsAnswers fun _ _ _ => rfl
  · exact .readBytes _ (pc + 1) fun operand => afterOperand_ignoresUnusedAnswers table opcode operand

theorem step_ignoresUnusedAnswers : IgnoresUnusedAnswers step := by
  have haction : IgnoresUnusedAnswers fun s =>
      afterOpcode s.params.optable s.pc (s.busRead s.pc).1 (s.busRead s.pc).2 :=
    .choose (f := fun s => (s.params.optable, s.pc)) (fun _ _ _ => rfl)
      (g := fun c s => afterOpcode c.1 c.2 (s.busRead c.2).1 (s.busRead c.2).2)
      fun c => .busRead c.2 (afterOpcode_ignoresUnusedAnswers c.1 c.2)
  intro s t ht
  obtain ⟨hrun, -⟩ := step_next ht
  have hrun' (answers n) : (s.withAnswers answers n).run = .running := hrun
  simp only [step_eq_afterOpcode hrun, step_eq_afterOpcode (hrun' _ _)] at ht ⊢
  exact haction s t ht

/-- Settles O55: if the step used no answer, as many are left, so it does the same before every environment. -/
theorem stepWithoutIoReadsIgnoresTheEnvironment : Obligations.StepWithoutIoReadsIgnoresTheEnvironment := by
  intro s t answers n hstep hqueue hdraws
  obtain ⟨-, hsame⟩ := step_ignoresUnusedAnswers s t hstep
  exact hsame (by rw [State.answersLeft, hqueue, hdraws, State.answersLeft]) answers n

end Sys2Proof.Machine
end

section

namespace Sys2Proof.Machine

open Sys2Proof.Claims

/-! ## The fetch of a running machine (70_reset_and_hazards.md R273) -/

theorem State.fetch_of_instrLength {s : State} {n : Nat} (h : instrLength s.params.optable (s.busRead s.pc).1 = some n) :
    s.fetch = .bytes ((s.busRead s.pc).1 :: (State.readBytes (n - 1) (s.pc + 1) (s.busRead s.pc).2).1)
      (State.readBytes (n - 1) (s.pc + 1) (s.busRead s.pc).2).2 := by
  simp only [State.fetch, h]

/-- Up to two bytes outside the selected I/O window are read without a change of the state. -/
theorem State.readBytes_eq_take {s : State} {addr : Word} (h0 : s.bank addr ≠ .io) (h1 : s.bank (addr + 1) ≠ .io) :
    ∀ n ≤ 2, State.readBytes n addr s = ([(s.busRead addr).1, (s.busRead (addr + 1)).1].take n, s)
  | 0, _ => rfl
  | 1, _ => by simp only [State.readBytes, State.busRead_state h0, List.take]
  | 2, _ => by simp only [State.readBytes, State.busRead_state h0, State.busRead_state h1, List.take]

/-- Settles O43: `step` is defined so; where no byte comes from the I/O window the fetch is as many of the three bytes as the
decoded instruction has, and leaves the state as it is. -/
theorem stepRunsTheDecodedInstruction : Obligations.StepRunsTheDecodedInstruction := by
  refine ⟨fun s u code rest i hrun hfetch hdecode => ?_, fun s rest i hrun h0 h1 h2 hdecode => ?_⟩
  · obtain ⟨-, -, -, -, -, -, -, hcore⟩ := State.fetch_bytes hfetch
    exact ⟨step_of_fetch_bytes hrun hfetch hdecode, hcore⟩
  · obtain ⟨row, hlookup, hmnemonic, hmode, hbytes⟩ := decodeWith_cons_eq_ok_iff.1 hdecode
    have hlength : i.operand.bytes.length + 1 = i.mode.length := bytes_length i.operand
    have hle : row.mode.length - 1 ≤ 2 := Nat.sub_le_of_le_add row.mode.length_bounds.2
    have hnext : s.pc + 1 + 1 = s.pc + 2 := BitVec.add_assoc s.pc 1 1
    have hread : State.readBytes (row.mode.length - 1) (s.pc + 1) s = (i.operand.bytes, s) := by
      rw [State.readBytes_eq_take h1 (hnext ▸ h2) _ hle, hnext, hbytes, hmode, ← hlength, Nat.add_sub_cancel,
        List.take_left]
    have hfetch := State.fetch_of_instrLength (instrLength_eq_some_iff.2 ⟨row, hlookup, rfl⟩)
    rw [State.busRead_state h0, hread] at hfetch
    refine step_of_fetch_bytes hrun hfetch (rest := []) (decodeWith_cons_eq_ok_iff.2 ⟨row, hlookup, hmnemonic, hmode, ?_⟩)
    rw [List.append_nil]

/-! ## A break and its return (70_reset_and_hazards.md R280) -/

/-- The status byte that BRK leaves and pushes has Break and Interrupt-Disable set and every other flag as before. -/
theorem flags_of_breakStatus {s t : State} (h : t.p = s.p ||| 0x14) :
    t.flag .brk = true ∧ t.flag .interrupt = true ∧ FlagsKept [.brk, .interrupt] s t := by
  have hflag (f : Flag) : t.flag f = if f = .interrupt then true else if f = .brk then true else s.flag f := by
    rw [State.flag, h, ← setFlag_interrupt_brk, getFlag_setFlag, getFlag_setFlag, State.flag]
  refine ⟨hflag .brk, hflag .interrupt, fun f hf => ?_⟩
  simp only [List.mem_cons, List.not_mem_nil, or_false, not_or] at hf
  obtain ⟨hbrk, hinterrupt⟩ := hf
  rw [hflag, if_neg hinterrupt, if_neg hbrk]

/-- Settles O40: the slots that RTI reads are those that BRK wrote, and nothing but SP and RAM decides where RTI goes and
which flags it loads. -/
theorem brkThenRtiSkipsAByte : Obligations.BrkThenRtiSkipsAByte := by
  intro s hwf
  obtain ⟨-, hbrk⟩ := brkResult
  obtain ⟨-, hrti⟩ := rtiResult
  obtain ⟨saved, t, hexec, hsaved, hhigh, hlow, hstatus, -, ht, hcore⟩ := hbrk s hwf
  obtain ⟨-, -, -, hsp, -, hp, hram, -⟩ := (sameCore_iff _ _).1 hcore
  have htsp : t.sp = s.sp - 3 := by rw [ht, hsp, hsaved]
  have htp : t.p = s.p ||| 0x14 := by rw [ht, hp, hsaved]
  have htram : t.ram = saved.ram := by rw [ht, hram]
  obtain ⟨htbrk, htinterrupt, -⟩ := flags_of_breakStatus htp
  refine ⟨t, hexec, htbrk, htinterrupt, fun u husp huram => ?_⟩
  obtain ⟨v, hv, -, hvp, hvsp, hvpc⟩ := hrti u
  have hpeek (b : Word) : u.peek b = saved.peek b := congrArg (Memory.read · b.toNat) (huram.trans htram)
  have hslot1 : u.sp + 1 = s.sp - 2 := by bv_omega
  have hslot2 : u.sp + 2 = s.sp - 1 := by bv_omega
  have hslot3 : u.sp + 3 = s.sp := by bv_omega
  rw [hslot1, hpeek, hstatus] at hvp
  rw [hslot2, hslot3, hpeek, hpeek, hhigh, hlow] at hvpc
  exact ⟨v, hv, by omega, by bv_omega, flags_of_breakStatus hvp⟩

/-! ## Stores under a ROM (70_reset_and_hazards.md R278) -/

/-- A byte stored at an address that reads as ROM lands in RAM, and a read of the address still gives the ROM's byte: PORT_ADDR
is no such address, so the selection stays. -/
theorem stored_under_rom {addr : Word} {v : Byte} {u t : State} (h : Stored addr v u t)
    (hport : legalPortAddr u.params.portAddr = true)
    (hrom : u.bank addr = .basic ∨ u.bank addr = .chargen ∨ u.bank addr = .kernal) :
    t.peek addr = v ∧ (t.busRead addr).1 = (u.busRead addr).1 := by
  obtain ⟨hother, hparams, -, -, -, hstored, -⟩ := h
  have hio : u.bank addr ≠ .io := fun e => by simp [e] at hrom
  have hne : u.params.portAddr ≠ addr := by
    rintro rfl
    simp [u.bank_of_legalPortAddr hport] at hrom
  have hbank : t.bank addr = u.bank addr := by
    rw [State.bank, State.port, hparams, hother _ hne]
    rfl
  exact ⟨(hstored hio).1, State.busRead_fst_congr_of_rom hparams hbank hrom⟩

theorem exec_staAbs {s : State} (hwf : s.ram.wf = true) (addr : Word) :
    ∃ t, exec (.staAbs addr) s = .next t ∧ Stored addr s.a s t := by
  obtain ⟨-, -, -, hresult⟩ := storesResult
  obtain ⟨hsta, -⟩ := hresult (.staAbs addr) s hwf
  obtain ⟨_, t, ⟨⟩, hexec, hstored, -⟩ := hsta rfl
  exact ⟨t, hexec, hstored⟩

theorem exec_ldaAbs (addr : Word) (s : State) :
    ∃ t, exec (.ldaAbs addr) s = .next t ∧ t.a = (s.busRead addr).1 ∧ ∀ b : Word, t.peek b = s.peek b := by
  obtain ⟨-, -, -, hresult⟩ := loadsResult
  obtain ⟨hlda, -⟩ := hresult (.ldaAbs addr) s
  obtain ⟨m, u, t, hdata, hexec, ⟨hpeek, -⟩, -, ha, -⟩ := hlda rfl
  have hread : s.busRead addr = (m, u) := Option.some.inj hdata
  exact ⟨t, hexec, by rw [ha, hread], hpeek⟩

theorem exec_incAbs {s : State} (hwf : s.ram.wf = true) (addr : Word) :
    ∃ t, exec (.incAbs addr) s = .next t ∧ Stored addr ((s.busRead addr).1 + 1) (s.busRead addr).2 t := by
  obtain ⟨-, -, hresult⟩ := incDecResult
  obtain ⟨hinc, -⟩ := hresult (.incAbs addr) s hwf
  obtain ⟨-, -, hmem⟩ := hinc rfl
  obtain ⟨_, v, u, t, haddr, hread, -, hexec, -, -, -, -, -, hstored, -⟩ := hmem (.abs addr) rfl
  have hresolve : (s.resolve (.abs addr)).1 = addr := rfl
  rw [haddr, hresolve] at hread hstored
  exact ⟨t, hexec, by rw [hread, add_one_eq_ofNat]; exact hstored⟩

/-- Settles O42: STA and INC each do one write at the address, which a ROM hides and a collaborator takes. -/
theorem storeUnderRomIsHidden : Obligations.StoreUnderRomIsHidden := by
  intro s addr hwf hport
  obtain ⟨t, hsta, hstored⟩ := exec_staAbs hwf addr
  refine ⟨fun hrom => ⟨?_, ?_⟩, fun hio => ⟨t, hsta, fun b => ?_⟩⟩
  · obtain ⟨hbyte, hread⟩ := stored_under_rom hstored hport hrom
    obtain ⟨u, hlda, ha, hpeek⟩ := exec_ldaAbs addr t
    exact ⟨t, u, hsta, hbyte, hlda, ha.trans hread, (hpeek addr).trans hbyte⟩
  · obtain ⟨t, hinc, hstored⟩ := exec_incAbs hwf addr
    have hio : s.bank addr ≠ .io := fun e => by simp [e] at hrom
    rw [State.busRead_state hio] at hstored
    exact ⟨t, hinc, stored_under_rom hstored hport hrom⟩
  · obtain ⟨hother, -, -, -, -, -, hevent⟩ := hstored
    by_cases hb : b = addr
    · exact hb ▸ (hevent hio).1
    · exact hother b hb

end Sys2Proof.Machine
end

section

namespace Sys2Proof.Machine

open Sys2Proof.Claims

/-! ## The reset vector (70_reset_and_hazards.md R271) -/

/-- From 0xE000 on, port bit 1 selects the kernal image or RAM, and no read asks a collaborator (20_memory.md R51). -/
theorem State.busRead_of_top (s : State) {addr : Word} (h : 0xE000 ≤ addr.toNat) :
    s.busRead addr =
      (if s.port.getLsbD 1 = true then s.params.kernal.read (addr.toNat - 0xE000) else s.peek addr, s) := by
  have hbank : s.bank addr = if s.port.getLsbD 1 = true then .kernal else .ram := by
    rw [State.bank, bankOf_eq, if_neg (by omega), if_neg (by omega), if_pos h, BitVec.getLsbD,
      Nat.testBit_eq_decide_div_mod_eq]
    simp only [decide_eq_true_eq, pow_one]
  split at hbank
  · next hbit => rw [State.busRead_of_kernal hbank, if_pos hbit]
  · next hbit => rw [State.busRead_of_ram hbank, if_neg hbit]

theorem State.readWord_resetVector (s : State) :
    s.readWord resetVector =
      (if s.port.getLsbD 1 = true then operandWord (s.params.kernal.read 0x1FFC) (s.params.kernal.read 0x1FFD)
        else operandWord (s.peek 0xFFFC) (s.peek 0xFFFD), s) := by
  have hlow := s.busRead_of_top (addr := resetVector) (by decide)
  have hhigh := s.busRead_of_top (addr := resetVector + 1) (by decide)
  rw [State.readWord, hlow, hhigh]
  split <;> rfl

theorem State.hostReset_eq (s : State) :
    s.hostReset = { s with pc := (s.readWord resetVector).1, run := .running } := by
  rw [State.hostReset, State.readWord_resetVector]
  rfl

theorem State.hostReset_pc (s : State) : s.hostReset.pc = (s.readWord resetVector).1 := rfl

/-- PC and RUN do not bear on the vector, so the word is still the one read there after `reset()`. -/
theorem State.readWord_resetVector_hostReset (s : State) :
    (s.hostReset.readWord resetVector).1 = (s.readWord resetVector).1 := by
  rw [State.hostReset_eq, State.readWord_resetVector, State.readWord_resetVector]
  rfl

/-- Settles O56: the vector's two bytes are both in the kernal image or both in RAM, and reading them changes nothing. -/
theorem resetLoadsPcAndRunOnly : Obligations.ResetLoadsPcAndRunOnly := by
  intro s
  refine ⟨s.hostReset_eq, fun hbit => ?_, fun hbit => ?_⟩
  · rw [State.hostReset_pc, State.readWord_resetVector, if_pos hbit, operandWord_toNat]
  · rw [State.hostReset_pc, State.readWord_resetVector, if_neg (Bool.eq_false_iff.1 hbit), operandWord_toNat]

/-! ## Construction (70_reset_and_hazards.md R270, 10_state.md R35) -/

theorem romImage_eq_ok_iff {size : Nat} {buffer : Option (List Byte)} {m : Memory} :
    romImage size buffer = .ok m ↔ ∃ bytes, (buffer = some bytes ∧ bytes.length = size) ∧ Memory.ofBytes 0 bytes = m := by
  cases buffer with
  | none => simp [romImage]
  | some bytes =>
    simp only [romImage, Option.some.injEq, and_assoc, exists_eq_left']
    split <;> simp [*]

/-- The state before PC is loaded, with each ROM buffer from its window's first address on. -/
def Init.stateOf (init : Init) (kernal basic chargen : List Byte) : State :=
  init.state (.ofBytes 0 kernal) (.ofBytes 0 basic) (.ofBytes 0 chargen)

/-- Construction succeeds on three buffers of the right sizes, a legal PORT_ADDR and a legal table, and on nothing else. -/
theorem construct_eq_ok_iff {init : Init} {s : State} : construct init = .ok s ↔
    ∃ kernal basic chargen, (init.kernal = some kernal ∧ kernal.length = romSize) ∧
      (init.basic = some basic ∧ basic.length = romSize) ∧ (init.chargen = some chargen ∧ chargen.length = chargenSize) ∧
      legalPortAddr init.portAddr = true ∧ tableWellFormed init.optable = true ∧
      (init.stateOf kernal basic chargen).hostReset = s := by
  constructor
  · intro h
    simp only [construct] at h
    split at h
    · next hk hb hc =>
      obtain ⟨kernal, hkernal, rfl⟩ := romImage_eq_ok_iff.1 hk
      obtain ⟨basic, hbasic, rfl⟩ := romImage_eq_ok_iff.1 hb
      obtain ⟨chargen, hchargen, rfl⟩ := romImage_eq_ok_iff.1 hc
      split at h
      · cases h
      · next hport =>
        split at h
        · cases h
        · next htable =>
          cases h
          exact ⟨kernal, basic, chargen, hkernal, hbasic, hchargen, by simpa using hport, by simpa using htable, rfl⟩
    all_goals cases h
  · rintro ⟨kernal, basic, chargen, hkernal, hbasic, hchargen, hport, htable, rfl⟩
    simp only [construct, romImage_eq_ok_iff.2 ⟨kernal, hkernal, rfl⟩, romImage_eq_ok_iff.2 ⟨basic, hbasic, rfl⟩,
      romImage_eq_ok_iff.2 ⟨chargen, hchargen, rfl⟩, hport, htable]
    rfl

theorem construct_error_of_ne_ok {init : Init} (h : ∀ s, construct init ≠ .ok s) : ∃ e, construct init = .error e := by
  cases hc : construct init with
  | error e => exact ⟨e, rfl⟩
  | ok s => exact absurd hc (h s)

theorem Memory.canonical_ofBytes {bytes : List Byte} {size : Nat} (h : bytes.length = size) :
    (Memory.ofBytes 0 bytes).canonical size = true :=
  Memory.canonicalFrom_ofBytes bytes 0 size (by omega)

theorem Memory.read_ofBytes_of_getElem? {bytes : List Byte} {k : Nat} {b : Byte} (h : bytes[k]? = some b) :
    (Memory.ofBytes 0 bytes).read k = b := by
  rw [Memory.read_ofBytes, if_pos k.zero_le, Nat.sub_zero, h, Option.getD_some]

/-- `reset()` of a machine with canonical RAM and legal parameters meets the invariant, whatever RUN was. -/
theorem State.hostReset_inv {s : State} (hwf : s.ram.wf = true) (hlegal : s.params.legal = true) :
    s.hostReset.inv = true := by
  rw [State.hostReset_eq]
  exact (State.inv_iff _).2 ⟨hwf, hlegal, rfl⟩

theorem Init.stateOf_legal {init : Init} {kernal basic chargen : List Byte} (hkernal : kernal.length = romSize)
    (hbasic : basic.length = romSize) (hchargen : chargen.length = chargenSize)
    (hport : legalPortAddr init.portAddr = true) (htable : tableWellFormed init.optable = true) :
    (init.stateOf kernal basic chargen).params.legal = true := by
  simp only [Params.legal, Init.stateOf, Init.state, hport, htable, Memory.canonical_ofBytes hkernal,
    Memory.canonical_ofBytes hbasic, Memory.canonical_ofBytes hchargen, Bool.and_self]

/-- Settles O57: a machine that is made has its three buffers with their sizes, and what `reset()` leaves of its state is what
the parameters say. -/
theorem constructionFromRomBuffers : Obligations.ConstructionFromRomBuffers := by
  intro init
  refine ⟨fun hmissing => construct_error_of_ne_ok fun s hs => ?missing,
    fun kernal basic chargen hkernal hbasic hchargen => ⟨fun hsize => construct_error_of_ne_ok fun s hs => ?size,
      fun hksize hbsize hcsize hport htable => ?made⟩⟩
  case missing =>
    obtain ⟨_, _, _, ⟨hk, -⟩, ⟨hb, -⟩, ⟨hc, -⟩, -⟩ := construct_eq_ok_iff.1 hs
    simp [hk, hb, hc] at hmissing
  case size =>
    obtain ⟨_, _, _, ⟨hk, hksize⟩, ⟨hb, hbsize⟩, ⟨hc, hcsize⟩, -⟩ := construct_eq_ok_iff.1 hs
    cases hkernal.symm.trans hk
    cases hbasic.symm.trans hb
    cases hchargen.symm.trans hc
    obtain h | h | h := hsize
    · exact h hksize
    · exact h hbsize
    · exact h hcsize
  case made =>
    have hmade : construct init = .ok (init.stateOf kernal basic chargen).hostReset := construct_eq_ok_iff.2
      ⟨kernal, basic, chargen, ⟨hkernal, hksize⟩, ⟨hbasic, hbsize⟩, ⟨hchargen, hcsize⟩, hport, htable, rfl⟩
    have hinv : (init.stateOf kernal basic chargen).hostReset.inv = true :=
      State.hostReset_inv (Memory.wf_ofCells init.ram) (Init.stateOf_legal hksize hbsize hcsize hport htable)
    have hpc := (init.stateOf kernal basic chargen).readWord_resetVector_hostReset
    refine ⟨_, hmade, hinv, ?_⟩
    rw [State.hostReset_eq] at hpc ⊢
    exact ⟨rfl, rfl, rfl, rfl, rfl, (getFlag_setFlag ..).trans (if_pos rfl),
      fun f hf => (getFlag_setFlag ..).trans (if_neg hf), rfl, rfl, rfl, Memory.read_ofCells init.ram,
      fun _ _ => Memory.read_ofBytes_of_getElem?, fun _ _ => Memory.read_ofBytes_of_getElem?,
      fun _ _ => Memory.read_ofBytes_of_getElem?, hpc.symm, rfl, rfl, rfl⟩

/-! ## `loadProgram` (70_reset_and_hazards.md R276) -/

/-- Settles O58: the program is poked, and where it fits the address of a byte less the load address is its place in the
payload. -/
theorem loadProgramCopiesOrRefuses : Obligations.LoadProgramCopiesOrRefuses := by
  intro s hwf
  refine ⟨rfl, fun _ => rfl, fun low high payload => ?_⟩
  have hbase : (operandWord low high).toNat = low.toNat + 256 * high.toNat := by
    rw [operandWord_toNat, Nat.add_comm, Nat.mul_comm]
  rw [← hbase]
  refine ⟨fun hover => by simp only [State.loadProgram, if_pos hover], fun hfits => ?_⟩
  refine ⟨s.pokeBytes (operandWord low high) payload, ?_, State.pokeBytes_frame _ _ s, fun b => ?_⟩
  · simp only [State.loadProgram, if_neg (Nat.not_lt.2 hfits)]
  · have hb := b.isLt
    rw [State.peek_pokeBytes hwf _ payload (by omega)]
    split
    · next hle =>
      have hindex : (b.toNat + 65536 - (operandWord low high).toNat) % 65536 = b.toNat - (operandWord low high).toNat := by
        omega
      rw [hindex]
    · next hlt =>
      have hpast : payload.length ≤ (b.toNat + 65536 - (operandWord low high).toNat) % 65536 := by omega
      rw [List.getElem?_eq_none hpast, Option.getD_none]

end Sys2Proof.Machine
end

section

namespace Sys2Proof.Machine

open Sys2Proof.Claims

/-! ## `run` (70_reset_and_hazards.md R274, R275) -/

/-- The reason a run gives is true of the state it ends in, and it is never a refusal: `last` is the count at which the budget
is used up. -/
def RunResult.StopsRightly (escape : Nat → Bool) (last : Nat) (r : RunResult) : Prop :=
  match r.stop with
  | .budget => r.count = last ∧ r.state.run = .running
  | .escape => escape r.count = true ∧ r.state.run = .running
  | .illegal pc opcode => r.state.run = .halted pc opcode
  | .refused _ => False

/-- What a run from `s` that has counted `count` steps has done: at most `budget` steps more, each after a poll that did not
ask to stop, and then it stopped for a true reason. -/
structure RunsFrom (escape : Nat → Bool) (budget count : Nat) (s : State) (r : RunResult) : Prop where
  count_le : count ≤ r.count
  le_budget : r.count ≤ count + budget
  steps : core.run (r.count - count) s = .next r.state
  polls : ∀ k, count ≤ k → k < r.count → escape k = false
  inv : r.state.inv = true
  stops : r.StopsRightly escape (count + budget)

/-- A run that stops at once. -/
theorem RunsFrom.refl {escape : Nat → Bool} {budget count : Nat} {s : State} {stop : RunStop} (hinv : s.inv = true)
    (hstops : RunResult.StopsRightly escape (count + budget) ⟨count, s, stop⟩) :
    RunsFrom escape budget count s ⟨count, s, stop⟩ where
  count_le := le_refl count
  le_budget := Nat.le_add_right count budget
  steps := by rw [Nat.sub_self]; rfl
  polls _ hle hlt := absurd hlt (Nat.not_lt.2 hle)
  inv := hinv
  stops := hstops

/-- A run that does one more step first. -/
theorem RunsFrom.step {escape : Nat → Bool} {budget count : Nat} {s t : State} {r : RunResult}
    (h : RunsFrom escape budget (count + 1) t r) (hpoll : escape count = false) (hstep : step s = .next t) :
    RunsFrom escape (budget + 1) count s r where
  count_le := Nat.le_of_succ_le h.count_le
  le_budget := Nat.add_right_comm count 1 budget ▸ h.le_budget
  steps := by
    have hcount : r.count - count = r.count - (count + 1) + 1 := by have := h.count_le; omega
    rw [hcount, core_run_succ hstep]
    exact h.steps
  polls k hle hlt := by
    obtain rfl | hne := Nat.eq_or_lt_of_le hle
    · exact hpoll
    · exact h.polls k hne hlt
  inv := h.inv
  stops := Nat.add_right_comm count 1 budget ▸ h.stops

theorem runLoop_runsFrom (escape : Nat → Bool) (budget count : Nat) {s : State} (hinv : s.inv = true) :
    RunsFrom escape budget count s (runLoop escape budget count s) := by
  induction budget generalizing count s with
  | zero =>
    unfold runLoop
    split
    · next hrun => exact .refl hinv hrun
    · next hrun => exact .refl hinv ⟨rfl, hrun⟩
  | succ budget ih =>
    unfold runLoop
    split
    · next hrun => exact .refl hinv hrun
    · next hrun =>
      by_cases hpoll : escape count = true
      · simp only [if_pos hpoll]
        exact .refl hinv ⟨hpoll, hrun⟩
      · obtain ⟨-, hlegal, -⟩ := s.inv_iff.1 hinv
        obtain ⟨t, hstep, -⟩ := runningLegalMachineAlwaysSteps s hrun hlegal
        obtain ⟨hinv', -⟩ := stepKeepsTheInvariant s t hinv hstep
        simp only [if_neg hpoll, hstep]
        exact (ih (count + 1) hinv').step (Bool.eq_false_iff.2 hpoll) hstep

/-- The clauses of `StopsRightly`, reason by reason. -/
theorem RunResult.StopsRightly.clauses {escape : Nat → Bool} {last : Nat} {r : RunResult} (h : r.StopsRightly escape last) :
    (r.stop = .budget → r.count = last ∧ r.state.run = .running) ∧
      (r.stop = .escape → escape r.count = true ∧ r.state.run = .running) ∧
      (∀ pc opcode, r.stop = .illegal pc opcode ↔ r.state.run = .halted pc opcode) ∧
      ∀ reason, r.stop ≠ .refused reason := by
  unfold RunResult.StopsRightly at h
  cases hstop : r.stop <;> simp_all

/-- Settles O60: a halted machine is reported at once; a running one runs from the state with PC at the start address, and the
reason it gives for stopping is true. -/
theorem runEndsByBudgetEscapeOrHalt : Obligations.RunEndsByBudgetEscapeOrHalt := by
  intro s start n escape hinv
  cases hrun : s.run with
  | halted pc opcode =>
    obtain ⟨-, hhalted, -⟩ := haltIsStickyUntilReset s pc opcode hrun
    have hstops : RunResult.StopsRightly escape n ⟨0, s, .illegal pc opcode⟩ := hrun
    rw [hhalted start n escape]
    exact ⟨by rintro _ _ ⟨⟩; rfl, nofun, n.zero_le, hinv, hstops.clauses⟩
  | running =>
    have hinv' : (s.setPc start).inv = true := ((WritesOnly.refl (fun _ => false) s).setPc start).inv_of_running hinv hrun
    have hresult : s.hostRun start n escape = runLoop escape n 0 (s.setPc start) := by simp only [State.hostRun, hrun]
    have hruns := runLoop_runsFrom escape n 0 hinv'
    rw [← hresult] at hruns
    obtain ⟨-, hle, hsteps, hpolls, hinv, hstops⟩ := hruns
    rw [Nat.zero_add] at hle hstops
    rw [State.setPc, hrun] at hsteps
    exact ⟨nofun, fun _ => ⟨hsteps, fun k => hpolls k k.zero_le⟩, hle, hinv, hstops.clauses⟩

end Sys2Proof.Machine
end

section

namespace Sys2Proof

/-! ## What the encoder writes (30_encoding.md R90, R96) -/

theorem encodeWith_eq_some_iff {table : List Row} {i : Instr} {code : List Byte} :
    encodeWith table i = some code ↔
      ∃ row, rowFor table i.mnemonic i.mode = some row ∧ row.opcode :: i.operand.bytes = code :=
  Option.map_eq_some_iff

/-- The decoder reads an instruction back from its encoding: where no opcode stands twice, the encoder's row is the one the
decoder looks up (30_encoding.md R103). -/
theorem decodeWith_encodeWith {table : List Row} (hdistinct : opcodesDistinct table = true) {i : Instr} {code : List Byte}
    (hcode : encodeWith table i = some code) (rest : List Byte) : decodeWith table (code ++ rest) = .ok (i, rest) := by
  obtain ⟨row, hrow, rfl⟩ := encodeWith_eq_some_iff.1 hcode
  obtain ⟨hlookup, hmnemonic, hmode⟩ := lookup_of_rowFor hdistinct hrow
  exact decodeWith_cons_eq_ok_iff.2 ⟨row, hlookup, hmnemonic, hmode, rfl⟩

/-- An encoding has the length of the instruction's mode (30_encoding.md R91). -/
theorem length_of_encodeWith {table : List Row} {i : Instr} {code : List Byte} (hcode : encodeWith table i = some code) :
    code.length = i.mode.length := by
  obtain ⟨row, -, rfl⟩ := encodeWith_eq_some_iff.1 hcode
  exact bytes_length i.operand

/-- A table that populates an instruction encodes it. -/
theorem Instr.exists_encodeWith {table : List Row} {i : Instr} (h : i.wellFormedIn table = true) :
    ∃ code, encodeWith table i = some code := by
  obtain ⟨row, hrow⟩ := Option.isSome_iff_exists.1 h
  exact ⟨_, encodeWith_eq_some_iff.2 ⟨row, hrow, rfl⟩⟩

/-! ## The default table (30_encoding.md R96, R97) -/

/-- Rows in rising order of opcode hold no opcode twice. -/
theorem opcodesDistinct_of_pairwise_lt {table : List Row} (h : (table.map (·.opcode.toNat)).Pairwise (· < ·)) :
    opcodesDistinct table = true := by
  induction table with
  | nil => rfl
  | cons row rest ih =>
    obtain ⟨hrow, hrest⟩ := List.pairwise_cons.1 h
    refine Bool.and_eq_true_iff.2 ⟨List.all_eq_true.2 fun other hother => bne_iff_ne.2 fun heq => ?_, ih hrest⟩
    exact (hrow _ (List.mem_map_of_mem hother)).ne (congrArg BitVec.toNat heq)

/-- The matrix is written in rising order, so neighbours are all that has to be compared. -/
theorem opcodesDistinct_optable : opcodesDistinct optable = true := by
  have hrising : (optable.map (·.opcode.toNat)).IsChain (· < ·) := by decide +kernel
  exact opcodesDistinct_of_pairwise_lt hrising.pairwise

theorem tableWellFormed_optable : tableWellFormed optable = true := by
  have hbound : optable.all Row.bound = true := by decide +kernel
  exact Bool.and_eq_true_iff.2 ⟨hbound, opcodesDistinct_optable⟩

/-- The mnemonic and the mode of a row as one number: the kernel compares numbers faster than pairs. -/
def Row.pairIndex (row : Row) : Nat :=
  16 * row.mnemonic.ctorIdx + row.mode.ctorIdx

/-- Rows with different pair indices bind different (mnemonic, mode) pairs. -/
theorem pairsDistinct_of_nodup_pairIndex {table : List Row} (h : (table.map Row.pairIndex).Nodup) :
    pairsDistinct table = true := by
  induction table with
  | nil => rfl
  | cons row rest ih =>
    obtain ⟨hrow, hrest⟩ := List.nodup_cons.1 h
    refine Bool.and_eq_true_iff.2 ⟨List.all_eq_true.2 fun other hother => ?_, ih hrest⟩
    simp only [Bool.not_eq_true', Bool.and_eq_false_iff, beq_eq_false_iff_ne]
    by_contra! heq
    obtain ⟨hmnemonic, hmode⟩ := heq
    exact hrow (List.mem_map.2 ⟨other, hother, by simp only [Row.pairIndex, hmnemonic, hmode]⟩)

theorem pairsDistinct_optable : pairsDistinct optable = true := by
  have hnodup : (optable.map Row.pairIndex).Nodup := by decide +kernel
  exact pairsDistinct_of_nodup_pairIndex hnodup

/-- The row that populates an instruction does not depend on its operand's value, so each constructor is one search of the
table. -/
theorem Instr.wellFormed_eq_true (i : Instr) : i.wellFormed = true := by
  cases i <;> rfl

theorem encodeWith_optable (i : Instr) : encodeWith optable i = some (encode i) := by
  obtain ⟨code, hcode⟩ := Instr.exists_encodeWith i.wellFormed_eq_true
  rw [encode, hcode, Option.getD_some]

theorem decode_of_lookup_none {b : Byte} (h : lookup optable b = none) (rest : List Byte) :
    decode (b :: rest) = .error (.illegal b) := by
  simp only [decode, decodeWith, h]

/-! ## The obligations on the round trip and on the default table -/

/-- Settles O1: a table that populates an instruction encodes it, and the encoding decodes to it; the default table has no
opcode twice and encodes every instruction. -/
theorem decodeUndoesEncode : Obligations.DecodeUndoesEncode := by
  refine ⟨fun table i rest hdistinct hi => ?_, fun i rest => ?_⟩
  · obtain ⟨code, hcode⟩ := Instr.exists_encodeWith hi
    exact ⟨code, hcode, length_of_encodeWith hcode, decodeWith_encodeWith hdistinct hcode rest⟩
  · exact decodeWith_encodeWith opcodesDistinct_optable (encodeWith_optable i) rest

/-- Settles O2: the decoder read the opcode of the row it looked up and then the operand bytes; where no pair stands twice, the
encoder finds that same row. -/
theorem encodeUndoesDecode : Obligations.EncodeUndoesDecode := by
  intro table bytes rest i h
  cases bytes with
  | nil => cases h
  | cons opcode bytes =>
    obtain ⟨row, hlookup, hmnemonic, hmode, rfl⟩ := decodeWith_cons_eq_ok_iff.1 h
    obtain rfl := opcode_of_lookup hlookup
    refine ⟨⟨row, lookup_mem hlookup, hmnemonic, hmode, rfl⟩, fun hdistinct => ?_⟩
    obtain ⟨hrow, -⟩ := rowFor_of_lookup hdistinct hlookup
    rw [hmnemonic, hmode] at hrow
    exact ⟨_, encodeWith_eq_some_iff.2 ⟨row, hrow, rfl⟩, rfl⟩

/-- Settles O3: the table's own properties are evaluated, and an opcode it does not populate is refused by name. -/
theorem defaultTableIsLegal : Obligations.DefaultTableIsLegal :=
  ⟨rfl, tableWellFormed_optable, pairsDistinct_optable, Instr.wellFormed_eq_true, Machine.lookup_optable_eq_none_iff,
    fun b rest hb => decode_of_lookup_none ((Machine.lookup_optable_eq_none_iff b).2 hb) rest⟩

end Sys2Proof
end
